-- ==== Sys2Proof/Word.lean ====
section
/-! DEFINITION. The word types of the CORE, with the widths of spec/10_state.md (rules R21 to R29, R46) and
spec/30_encoding.md (rules R81, R84, R90). -/
namespace Sys2Proof

/-- A 32-bit entry of the register map (R60). -/
abbrev Word := BitVec 32

/-- The spec's `Num`: a 32-bit two's-complement word read as `toInt / 2^16` (R13). -/
abbrev NumWord := BitVec 32

/-- A value of the time base or a difference of two such values; `TW = 32` (R9, R25). -/
abbrev Ticks := BitVec 32

/-- A signed rotation count in two's complement; `RW = 32` (R9, R28). -/
abbrev Count := BitVec 32

/-- The raw 3-bit sensor sample, line 1 in bit 0 (R81). -/
abbrev Sample := BitVec 3

/-- A rotor state 0 to 5, or 7 for Invalid or None (R21, R83). -/
abbrev RotorState := BitVec 3

/-- A drive state 0 to 7 (R87). -/
abbrev DriveState := BitVec 3

/-- Six driver flags: bit 0 `L1L`, 1 `L1H`, 2 `L2L`, 3 `L2H`, 4 `L3L`, 5 `L3H` (R84). -/
abbrev Pattern := BitVec 6

/-- The 67-bit command word: `op` in bits 66:64, `a` in 63:32, `b` in 31:0 (R90). -/
abbrev CmdWord := BitVec 67

/-- One byte. -/
abbrev Byte := BitVec 8

end Sys2Proof
end

