-- ==== Sys2Proof/Config.lean ====
section
/-! DEFINITION. What is fixed when the CORE is built (R9, R19) and what the environment leaves free (R18, R115).
The two tables of R9 stand in Sys2Proof/Machine/Tables.lean; the widths `TW` and `RW` are the types `Ticks` and `Count`. -/
namespace Sys2Proof.Config

/-- `FW`, the fraction bits of `Num` (R9, R13). -/
def fracBits : Nat := 16

/-- `TICK_HZ`, the ticks of `now` in one unit of time (R9, D11). -/
def tickHz : Nat := 1000000

/-- `PID_LATENCY`, the cycles between a velocity publication and the PID commit (R9, D23). -/
def pidLatency : BitVec 8 := 0

/-- `KICK_ON_START`: whether START commutates once from the sample of its cycle (R9, D32). -/
def kickOnStart : Bool := true

end Sys2Proof.Config

namespace Sys2Proof

/-- The levels on the CORE's sampled input ports in one cycle (R80). `rd_addr` is not here: a read has no effect on the
state (R61), so it is an argument of the read port's function. -/
structure Pins where
  /-- synchronous reset, active high (R260) -/
  rst : Bool
  /-- the sensor sample (R81) -/
  hall : Sample
  /-- a command word is presented this cycle -/
  cmdValid : Bool
  /-- the command word (R90) -/
  cmd : CmdWord
  deriving DecidableEq, Repr, Inhabited

/-- The levels on the input ports in a cycle that the placed stimulus does not reach: FREE. The spec places no constraint
on the sample sequence nor on the commands (R18, R115), so this constant has no body and nothing can be proved of its
values. It is applied to the number of cycles drawn so far (notes/assumptions/1.md). -/
opaque Config.freePins : Nat → Pins

end Sys2Proof
end

