-- ==== Sys2Proof/Syntax.lean ====
section
/-! DEFINITION. The operations of the CORE: one constructor of `Instr` per row of spec/opcode_table.json (R91, R100). -/
namespace Sys2Proof

/-- The nine configuration registers, by name (R46). -/
inductive CfgReg where
  | kp | ki | kd | iMax | leadMag | decelWin | settle | dutyInit | homeDuty
  deriving DecidableEq, Repr

/-- What the four index bits of WRCFG name: a register, or one of the reserved codes 9 to 15 (R46, R216). -/
inductive CfgIndex where
  | reg (r : CfgReg)
  | reserved (code : BitVec 4)
  deriving DecidableEq, Repr

/-- The eight rows that a command word selects, with the operand fields that are not ignored (R91, R92). -/
inductive Command where
  | nop
  | home
  | start (rot vel : NumWord)
  | wrcfg (index : CfgIndex) (value : Word)
  | clrf (mask : BitVec 4)
  | rsv5
  | rsv6
  | rsv7
  deriving DecidableEq, Repr

/-- Every operation of the CORE. The first eight are the commands of R91; the others have no encoding and are triggered
by state and inputs (R100). An operand that is the sample or the command word of the present cycle is no argument here: it is
read from the pins (`State.env`), as the spec's "of the current cycle" says (R123, R140, R148, R205, R212). -/
inductive Instr where
  /-- R206 -/
  | nop
  /-- R207 -/
  | home
  /-- R210: the target rotation count and the target velocity -/
  | start (rot vel : NumWord)
  /-- R213, R216 -/
  | wrcfg (index : CfgIndex) (value : Word)
  /-- R218 -/
  | clrf (mask : BitVec 4)
  /-- R220, opcode 5 -/
  | rsv5
  /-- R220, opcode 6 -/
  | rsv6
  /-- R220, opcode 7 -/
  | rsv7
  /-- R260 -/
  | reset
  /-- R126, phase P1 -/
  | oncommit
  /-- R148, phase P2 -/
  | homing
  /-- R140, phase P3 -/
  | edge
  /-- R175, phase P4 -/
  | pidstep
  /-- R205, phase P5 -/
  | cmd
  /-- R160, phase P6 -/
  | tick
  /-- R120: the raw sample to decode -/
  | decode (raw : Sample)
  /-- R125: the drive state and the duty -/
  | drive (d : DriveState) (u : NumWord)
  /-- R145: a valid rotor state -/
  | commutate (st : RotorState)
  /-- R161: the rotor state just commutated -/
  | bookkeep (st : RotorState)
  /-- R164 -/
  | refvisit
  /-- R176 -/
  | pid
  /-- R191: the aligned state -/
  | budget (a : RotorState)
  /-- R196 -/
  | profile
  deriving DecidableEq, Repr

/-- The operation a command word's row stands for. -/
def Command.toInstr : Command → Instr
  | .nop => .nop
  | .home => .home
  | .start rot vel => .start rot vel
  | .wrcfg i v => .wrcfg i v
  | .clrf m => .clrf m
  | .rsv5 => .rsv5
  | .rsv6 => .rsv6
  | .rsv7 => .rsv7

end Sys2Proof
end

