-- ==== Sys2Proof/WellFormed.lean ====
section
/-! DEFINITION. The conditions the spec puts on an operation's operands. Every check has an ill-formed term in
Sys2Proof/Tests/Slice0.lean that it refuses. -/
namespace Sys2Proof

/-- A rotor or aligned state is in 0..5 (R145, R161, R191). -/
def rotorStateOk (s : RotorState) : Bool := s.toNat ≤ 5

/-- A duty handed to DRIVE is in [0, 1]: the word is 0 to `0x00010000` (R125, R127). -/
def dutyOk (u : NumWord) : Bool := u.toNat ≤ 65536

/-- A reserved configuration index is 9 to 15; the codes 0 to 8 name registers (R46, R216). -/
def cfgIndexOk : CfgIndex → Bool
  | .reg _ => true
  | .reserved code => 9 ≤ code.toNat

/-- The operands are ones the spec gives the operation. -/
def WellFormed : Instr → Bool
  | .nop => true
  | .home => true
  | .start _ _ => true
  | .wrcfg i _ => cfgIndexOk i
  | .clrf _ => true
  | .rsv5 => true
  | .rsv6 => true
  | .rsv7 => true
  | .reset => true
  | .oncommit => true
  | .homing => true
  | .edge => true
  | .pidstep => true
  | .cmd => true
  | .tick => true
  | .decode _ => true
  | .drive _ u => dutyOk u
  | .commutate st => rotorStateOk st
  | .bookkeep st => rotorStateOk st
  | .refvisit => true
  | .pid => true
  | .budget a => rotorStateOk a
  | .profile => true

end Sys2Proof
end

