-- ==== Sys2Proof/Decode.lean ====
section
/-! DEFINITION. The command decoder (R90 to R93, R205) and the encoder. A word of 67 bits always decodes (R91); a string of
bytes is refused by name when it is not one such word. -/
namespace Sys2Proof

/-! ## Fields of the command word (R90, R92) -/

/-- `cmd[66:64]` -/
def opField (w : CmdWord) : BitVec 3 := w.extractLsb' 64 3

/-- `cmd[63:32]` -/
def aField (w : CmdWord) : Word := w.extractLsb' 32 32

/-- `cmd[31:0]` -/
def bField (w : CmdWord) : Word := w.extractLsb' 0 32

/-- WRCFG takes its index from `a[3:0]` (R92). -/
def cfgIndexField (a : Word) : BitVec 4 := a.extractLsb' 0 4

/-- CLRF takes its mask from `b[3:0]` (R92). -/
def maskField (b : Word) : BitVec 4 := b.extractLsb' 0 4

/-- The register an index names, or the reserved code (R46). -/
def cfgIndexOf (i : BitVec 4) : CfgIndex :=
  match i.toNat with
  | 0 => .reg .kp
  | 1 => .reg .ki
  | 2 => .reg .kd
  | 3 => .reg .iMax
  | 4 => .reg .leadMag
  | 5 => .reg .decelWin
  | 6 => .reg .settle
  | 7 => .reg .dutyInit
  | 8 => .reg .homeDuty
  | _ => .reserved i

/-- The index of a configuration register (R46), which is also its entry in the register map (R60). -/
def cfgRegCode : CfgReg → BitVec 4
  | .kp => 0
  | .ki => 1
  | .kd => 2
  | .iMax => 3
  | .leadMag => 4
  | .decelWin => 5
  | .settle => 6
  | .dutyInit => 7
  | .homeDuty => 8

/-- The four index bits that name a register or a reserved code. -/
def cfgIndexCode : CfgIndex → BitVec 4
  | .reg r => cfgRegCode r
  | .reserved code => code

/-! ## Decoding -/

/-- The opcode map of R91: the row is selected by `op` alone, for every word. -/
def decodeCommand (w : CmdWord) : Command :=
  match (opField w).toNat with
  | 0 => .nop
  | 1 => .home
  | 2 => .start (aField w) (bField w)
  | 3 => .wrcfg (cfgIndexOf (cfgIndexField (aField w))) (bField w)
  | 4 => .clrf (maskField (bField w))
  | 5 => .rsv5
  | 6 => .rsv6
  | _ => .rsv7

/-- The operation a command word selects (R91, R205). -/
def decodeWord (w : CmdWord) : Instr := (decodeCommand w).toInstr

/-- Why a string of bytes is no command word. -/
inductive DecodeReject where
  /-- not the nine bytes that hold 67 bits -/
  | wrongLength (bytes : Nat)
  /-- a bit above bit 66 is set; the port has no such bit (R90) -/
  | bitAboveThePort
  deriving DecidableEq, Repr

/-- The number a string of bytes holds, the first byte lowest (notes/assumptions/4.md). -/
def bytesToNat : List Byte → Nat
  | [] => 0
  | b :: bs => b.toNat + 256 * bytesToNat bs

/-- The low `n` bytes of a number, lowest first. -/
def natToBytes : Nat → Nat → List Byte
  | 0, _ => []
  | n + 1, w => BitVec.ofNat 8 w :: natToBytes n (w / 256)

/-- Decodes nine bytes that hold a 67-bit command word in bits 66:0 of a 72-bit number, lowest byte first. -/
def decodeBytes (bs : List Byte) : Except DecodeReject Instr :=
  if bs.length ≠ 9 then .error (.wrongLength bs.length)
  else if 2 ^ 67 ≤ bytesToNat bs then .error .bitAboveThePort
  else .ok (decodeWord (BitVec.ofNat 67 (bytesToNat bs)))

/-- The operation the decoder reads from a table word of `nbits` bits; bits from `nbits` up are 0. A row without an
encoding has no bits (R100), and nothing is read from none. -/
def decodeTableWord (nbits w : Nat) : Option Instr :=
  if nbits = 0 ∨ 72 < nbits ∨ 2 ^ nbits ≤ w then none
  else
    match decodeBytes (natToBytes 9 w) with
    | .ok i => some i
    | .error _ => none

/-! ## Encoding -/

/-- The command word `{op, a, b}` (R90). -/
def packWord (op : BitVec 3) (a b : Word) : CmdWord := (op ++ (a ++ b)).cast rfl

/-- The word of a command; ignored fields are written as 0 (R92). -/
def encodeCommand : Command → CmdWord
  | .nop => packWord 0 0 0
  | .home => packWord 1 0 0
  | .start rot vel => packWord 2 rot vel
  | .wrcfg i v => packWord 3 ((cfgIndexCode i).setWidth 32) v
  | .clrf m => packWord 4 0 (m.setWidth 32)
  | .rsv5 => packWord 5 0 0
  | .rsv6 => packWord 6 0 0
  | .rsv7 => packWord 7 0 0

/-- The word of an operation, where it has one: the internal operations have no encoding (R100). -/
def encode : Instr → Option CmdWord
  | .nop => some (encodeCommand .nop)
  | .home => some (encodeCommand .home)
  | .start rot vel => some (encodeCommand (.start rot vel))
  | .wrcfg i v => some (encodeCommand (.wrcfg i v))
  | .clrf m => some (encodeCommand (.clrf m))
  | .rsv5 => some (encodeCommand .rsv5)
  | .rsv6 => some (encodeCommand .rsv6)
  | .rsv7 => some (encodeCommand .rsv7)
  | .reset => none
  | .oncommit => none
  | .homing => none
  | .edge => none
  | .pidstep => none
  | .cmd => none
  | .tick => none
  | .decode _ => none
  | .drive _ _ => none
  | .commutate _ => none
  | .bookkeep _ => none
  | .refvisit => none
  | .pid => none
  | .budget _ => none
  | .profile => none

end Sys2Proof
end

