-- ==== Sys2Proof/Machine/State.lean ====
section
/-! DEFINITION. The state of the CORE (R20 to R29, R46), grouped as spec/10_state.md groups it, the reasons a step can stop,
and the state after reset (R59, R260). The fields of `Env` and `OpResult` are the model's own and are no state of the CORE
(notes/assumptions/1.md, 2.md). -/
namespace Sys2Proof.Machine

/-- The direction bit `dir`: 0 forward, 1 reverse (R23). -/
inductive Dir where
  | forward
  | reverse
  deriving DecidableEq, Repr

/-- The sensor path (R21). -/
structure SensorPath where
  /-- `hall_q`: the raw sample of the previous cycle -/
  hallQ : Sample
  /-- `rotor_prev`: the rotor state last commutated for; 7 is None -/
  rotorPrev : RotorState
  deriving DecidableEq, Repr

/-- Alignment and homing (R22). -/
structure Alignment where
  /-- `align_off` -/
  alignOff : RotorState
  /-- `homed` -/
  homed : Bool
  /-- `homing` -/
  homing : Bool
  /-- `home_fail` -/
  homeFail : Bool
  /-- `settle_cnt` -/
  settleCnt : BitVec 32
  deriving DecidableEq, Repr

/-- The output registers (R24). -/
structure Outputs where
  /-- `out_legs` -/
  outLegs : Pattern
  /-- `out_duty` -/
  outDuty : NumWord
  /-- `pend_pat` -/
  pendPat : Pattern
  /-- `pend_duty` -/
  pendDuty : NumWord
  /-- `on_pend` -/
  onPend : Bool
  deriving DecidableEq, Repr

/-- The velocity estimator (R26). -/
structure Estimator where
  /-- `t_ref` -/
  tRef : Ticks
  /-- `t_ref_valid` -/
  tRefValid : Bool
  /-- `last_iv` -/
  lastIv : Ticks
  /-- `velocity` -/
  velocity : NumWord
  /-- `vel_time` -/
  velTime : Ticks
  /-- `vel_pending` -/
  velPending : Bool
  /-- `pid_cnt` -/
  pidCnt : BitVec 8
  deriving DecidableEq, Repr

/-- The PID controller's state (R27). -/
structure PidState where
  /-- `target_mag` -/
  targetMag : NumWord
  /-- `duty` -/
  duty : NumWord
  /-- `integ` -/
  integ : NumWord
  /-- `err_prev` -/
  errPrev : NumWord
  /-- `t_prev` -/
  tPrev : Ticks
  deriving DecidableEq, Repr

/-- The rotation budget (R28). -/
structure Budget where
  /-- `rem`, signed -/
  rem : Count
  /-- `target_cnt`, signed -/
  targetCnt : Count
  /-- `latch` -/
  latch : Bool
  /-- `win` -/
  win : BitVec 16
  /-- `budget_on` -/
  budgetOn : Bool
  /-- `done` -/
  done : Bool
  /-- `prof` -/
  prof : NumWord
  deriving DecidableEq, Repr

/-- The nine configuration registers (R46). -/
structure CfgRegs where
  /-- `KP` -/
  kp : NumWord
  /-- `KI` -/
  ki : NumWord
  /-- `KD` -/
  kd : NumWord
  /-- `I_MAX` -/
  iMax : NumWord
  /-- `LEAD_MAG` -/
  leadMag : BitVec 3
  /-- `DECEL_WIN` -/
  decelWin : BitVec 16
  /-- `SETTLE` -/
  settle : BitVec 32
  /-- `DUTY_INIT` -/
  dutyInit : NumWord
  /-- `HOME_DUTY` -/
  homeDuty : NumWord
  deriving DecidableEq, Repr

/-- The MODEL's own: the environment of the CORE as data (R18). It is no state of the CORE, and RESET leaves it alone. -/
structure Env where
  /-- the levels on the input ports in the present cycle, as the last cycle that ran sampled them -/
  pins : Pins
  /-- the stimulus placed for the coming cycles, the next cycle first (R98: the statements of a script that take a cycle) -/
  script : List Pins
  /-- how many cycles took their inputs from `Config.freePins`, because no stimulus was placed for them -/
  draws : Nat
  deriving DecidableEq, Repr

/-- The MODEL's own: the result of the last DECODE or PROFILE run as an operation of its own. The two write no state of the
CORE (R120, R196), and their results would else be lost. The operations that use them (EDGE, HOMING, START, BUDGET) do not
write this field. -/
inductive OpResult where
  | none
  /-- the pair `(valid, s)` of R120 -/
  | decoded (valid : Bool) (state : RotorState)
  /-- the factor of R196 -/
  | factor (value : NumWord)
  deriving DecidableEq, Repr

/-- The state of the CORE. -/
structure State where
  /-- R21 -/
  sensor : SensorPath
  /-- R22 -/
  align : Alignment
  /-- `dir` (R23) -/
  dir : Dir
  /-- `drive_state` (R23) -/
  driveState : DriveState
  /-- R24 -/
  out : Outputs
  /-- `now` (R25) -/
  now : Ticks
  /-- R26 -/
  est : Estimator
  /-- R27 -/
  pid : PidState
  /-- R28 -/
  budget : Budget
  /-- `flags[3:0]` (R29) -/
  flags : BitVec 4
  /-- R46 -/
  cfg : CfgRegs
  /-- the model's own: the environment -/
  env : Env
  /-- the model's own: the result of the last pure operation run on its own -/
  result : OpResult
  deriving DecidableEq, Repr

/-- The reasons an operation can stop with a fault. The hardware has none (R232); R13 asks for this one of a model. -/
inductive Fault where
  /-- Raised by a meaning that divides (REFVISIT, PID, PROFILE and their callers) if it ever reaches `div`, `recip` or
  `ratio` with a zero divisor. R13 and R232 say that no rule reaches one and that a model which does has a bug and should fault.
  Safe: no value is returned in place of the quotient. -/
  | divisionByZero
  deriving DecidableEq, Repr

/-- The reasons an operation can be refused. The hardware refuses nothing (R115). -/
inductive Refusal where
  /-- Raised by `exec` alone, in the arm of an operation that has no meaning in the model yet. Safe: nothing is claimed of
  such an operation. No arm raises it now. -/
  | notModelled (mnemonic : String)
  deriving DecidableEq, Repr

/-- What an operation answers. -/
abbrev Result := Host.Outcome State Fault Refusal

/-- The machine in the cycle after a cycle with `rst = 1` (R59): every element at the value of the "reset" columns of R21 to
R29 and R46. The fields of `env` and `result` are the model's own (notes/assumptions/2.md). -/
def State.reset : State where
  sensor := { hallQ := 0, rotorPrev := 7 }
  align := { alignOff := 0, homed := false, homing := false, homeFail := false, settleCnt := 0 }
  dir := .forward
  driveState := 7
  out := { outLegs := 0, outDuty := 0, pendPat := 0, pendDuty := 0, onPend := false }
  now := 0
  est := { tRef := 0, tRefValid := false, lastIv := 0, velocity := 0, velTime := 0, velPending := false, pidCnt := 0 }
  pid := { targetMag := 0, duty := 0, integ := 0, errPrev := 0, tPrev := 0 }
  budget := { rem := 0, targetCnt := 0, latch := false, win := 0, budgetOn := false, done := false, prof := 0x00010000 }
  flags := 0
  cfg := { kp := 0x00008000, ki := 0, kd := 0, iMax := 0x7FFFFFFF, leadMag := 2, decelWin := 8,
           settle := BitVec.ofNat 32 Config.tickHz, dutyInit := 0x00010000, homeDuty := 0x00010000 }
  env := { pins := { rst := false, hall := 0, cmdValid := false, cmd := 0 }, script := [], draws := 0 }
  result := .none

end Sys2Proof.Machine
end

