-- ==== Sys2Proof/Machine/Flags.lean ====
section
/-! DEFINITION. The four error kinds, their flag bits and cause codes (R29, R230). The CORE has no arithmetic condition
codes (R29), so these are all its flag computations. -/
namespace Sys2Proof.Machine

/-- The error kinds (R230). -/
inductive ErrorKind where
  | invalidSensorReading
  | homingFailed
  | degenerateTimingSample
  | malformedCommand
  deriving DecidableEq, Repr

/-- The flag bit of a kind (R29, R230). -/
def errorBit : ErrorKind → Nat
  | .invalidSensorReading => 0
  | .homingFailed => 1
  | .degenerateTimingSample => 2
  | .malformedCommand => 3

/-- The cause code of a kind is the number of its flag bit plus one; it is a name only, and no register holds it (R230). -/
def causeCode (k : ErrorKind) : Nat := errorBit k + 1

/-- The kind's flag as a mask on `flags[3:0]`. -/
def errorMask (k : ErrorKind) : BitVec 4 := 1#4 <<< errorBit k

/-- `flags` with the kind's flag set; it stays 1 if it was 1 (R231). -/
def setFlag (flags : BitVec 4) (k : ErrorKind) : BitVec 4 := flags ||| errorMask k

/-- `flags AND NOT m` (R218). -/
def clearFlags (flags m : BitVec 4) : BitVec 4 := flags &&& ~~~m

end Sys2Proof.Machine
end

