-- ==== Sys2Proof/Machine/Arith.lean ====
section
/-! DEFINITION. The `Num` arithmetic (R12, R13): every primitive is given as the exact fraction of its operands, which the
quantiser `fx` rounds down and saturates once. A primitive that divides answers `none` for a zero divisor (R13). -/
namespace Sys2Proof.Machine

/-- `emod(x, m)`, the floored remainder for `m > 0` (R12). -/
def emod (x m : Int) : Int := Int.emod x m

/-- `1.0` as a count of the smallest step of `Num`: `2^FW` (R13). -/
def numOne : Int := 2 ^ Config.fracBits

/-- Saturation into `[-2^31, 2^31 - 1]`, in steps of `2^-FW` (R13). -/
def saturate (r : Int) : NumWord := BitVec.ofInt 32 (max (-2147483648) (min 2147483647 r))

/-- The quantiser `fx` on the exact rational `p / q`: `floor(p / q * 2^FW)`, saturated (R13). -/
def fx (p q : Int) : NumWord := saturate (Int.fdiv (p * numOne) q)

/-- `add(a, b) = fx(a + b)` (R13). -/
def numAdd (a b : NumWord) : NumWord := fx (a.toInt + b.toInt) numOne

/-- `sub(a, b) = fx(a - b)` (R13). -/
def numSub (a b : NumWord) : NumWord := fx (a.toInt - b.toInt) numOne

/-- `mul(a, b) = fx(a * b)` (R13). -/
def numMul (a b : NumWord) : NumWord := fx (a.toInt * b.toInt) (numOne * numOne)

/-- `div(a, b) = fx(a / b)` for `b != 0` (R13). -/
def numDiv (a b : NumWord) : Option NumWord := if b = 0 then none else some (fx a.toInt b.toInt)

/-- `nabs(a) = fx(abs(a))` (R13). -/
def numAbs (a : NumWord) : NumWord := fx a.toInt.natAbs numOne

/-- `ofInt(n) = fx(n)` (R13). -/
def numOfInt (n : Int) : NumWord := fx n 1

/-- `clamp01(a)` (R13). -/
def clamp01 (a : NumWord) : NumWord :=
  if a.toInt < 0 then 0 else if numOne < a.toInt then BitVec.ofInt 32 numOne else a

/-- `clampI(a, m) = max(-m, min(m, a))` for `m >= 0` (R13). -/
def clampI (a m : NumWord) : NumWord := BitVec.ofInt 32 (max (-m.toInt) (min m.toInt a.toInt))

/-- `trunc(a)`: the integer part, rounded toward zero (R13). -/
def numTrunc (a : NumWord) : Int := Int.tdiv a.toInt numOne

/-- `recip(iv) = fx(TICK_HZ / iv)` for `iv > 0` (R13). -/
def recip (iv : Ticks) : Option NumWord := if iv = 0 then none else some (fx Config.tickHz iv.toNat)

/-- `ticks2num(dk) = fx(dk / TICK_HZ)` (R13); the divisor is a constant above 0. -/
def ticks2num (dk : Ticks) : NumWord := fx dk.toNat Config.tickHz

/-- `ratio(p, q) = fx(p / q)` for `q > 0` (R13). -/
def ratio (p q : Nat) : Option NumWord := if q = 0 then none else some (fx p q)

end Sys2Proof.Machine
end

