-- ==== Sys2Proof/Machine/Tables.lean ====
section
/-! DEFINITION. The two constant tables of R9. No operation changes them (R19, R72). -/
namespace Sys2Proof.Machine

/-- `STATE_MAP`, raw sample to rotor state, 7 for Invalid (R82). -/
def stateMapTable : List RotorState := [7, 5, 3, 4, 1, 0, 2, 7]

/-- `STATE_MAP[raw]`; the table has an entry for each of the eight codes. -/
def stateMap (raw : Sample) : RotorState := stateMapTable.getD raw.toNat 7

/-- `DRIVE_TABLE`, drive state to driver pattern (R85). -/
def driveTableList : List Pattern := [0x12, 0x18, 0x09, 0x21, 0x24, 0x06, 0x00, 0x00]

/-- `DRIVE_TABLE[d]`; the table has an entry for each of the eight drive states. -/
def driveTable (d : DriveState) : Pattern := driveTableList.getD d.toNat 0

end Sys2Proof.Machine
end

