-- ==== Sys2Proof/Machine/Operands.lean ====
section
/-! DEFINITION. The values the operations compute from state before they act: the decoder's result, the aligned state, the phase
lead, the commanded drive state, the effective duty, the rotation count (R30: none of them is state). -/
namespace Sys2Proof.Machine

/-- The decoder's result: the pair `(valid, state)` of R83. -/
structure Decoded where
  valid : Bool
  state : RotorState
  deriving DecidableEq, Repr

/-- `DECODE(raw)` (R120): a table entry of 7 is Invalid. -/
def decodeSample (raw : Sample) : Decoded :=
  let s := stateMap raw
  if s = 7 then { valid := false, state := 7 } else { valid := true, state := s }

/-- The phase lead: `+LEAD_MAG` forward, `-LEAD_MAG` reverse (R23, R145). -/
def lead (dir : Dir) (leadMag : BitVec 3) : Int :=
  match dir with
  | .forward => leadMag.toNat
  | .reverse => -(leadMag.toNat : Int)

/-- The aligned state `emod(s - align_off + 6, 6)` (R17, R161). -/
def alignedState (alignOff st : RotorState) : RotorState :=
  BitVec.ofInt 3 (emod ((st.toNat : Int) - alignOff.toNat + 6) 6)

/-- The commanded drive state `emod(s - align_off + lead + 6, 6)` (R145). -/
def commandedState (s : State) (st : RotorState) : DriveState :=
  BitVec.ofInt 3 (emod ((st.toNat : Int) - s.align.alignOff.toNat + lead s.dir s.cfg.leadMag + 6) 6)

/-- `duty_eff = clamp01(mul(duty, prof))` (R127). -/
def dutyEff (s : State) : NumWord := clamp01 (numMul s.pid.duty s.budget.prof)

/-- The rotation count of a START: `trunc(rot)` as a 32-bit counter value (R211). -/
def rotationCount (rot : NumWord) : Count := BitVec.ofInt 32 (numTrunc rot)

/-- The session's window, `min(DECEL_WIN, abs(n))` (R197). -/
def sessionWindow (decelWin : BitVec 16) (n : Count) : BitVec 16 :=
  BitVec.ofNat 16 (min decelWin.toNat n.toInt.natAbs)

end Sys2Proof.Machine
end

