-- ==== Sys2Proof/Machine/Ops.lean ====
section
/-! DEFINITION. The named operations that the meanings share: raising an error kind (what the CORE has in place of taking an
exception, R231, R241) and acknowledging one (what it has in place of a return, R242); the configuration write; the driver
update; and how an operation that can stop is followed by another. -/
namespace Sys2Proof.Machine

/-- Runs `f` on the state `r` answers; a stop is passed on. -/
def andThen (r : Result) (f : State → Result) : Result :=
  match r with
  | .next s => f s
  | .fault e => .fault e
  | .refused e => .refused e

/-- Goes on with a quotient, or faults where there is none (R13: a model that divides by zero should fault). -/
def withQuotient (q : Option NumWord) (f : NumWord → Result) : Result :=
  match q with
  | some v => f v
  | none => .fault .divisionByZero

/-- `raise <Kind>` (R231): the kind's sticky flag is set and nothing else changes: no saved state, no vector, no mode change
(R241). Abandoning the rest of the operation is the caller's. -/
def raise (k : ErrorKind) (s : State) : State := { s with flags := setFlag s.flags k }

/-- The host's acknowledgement, which CLRF performs (R218, R242): the selected flags fall and nothing else changes. There is no
return operation, because nothing was entered. -/
def acknowledge (m : BitVec 4) (s : State) : State := { s with flags := clearFlags s.flags m }

/-- The configuration write `x[i] <- v`, normalised per register (R46, R63). -/
def cfgWrite (r : CfgReg) (v : Word) (c : CfgRegs) : CfgRegs :=
  match r with
  | .kp => { c with kp := v }
  | .ki => { c with ki := v }
  | .kd => { c with kd := v }
  | .iMax => { c with iMax := numAbs v }
  | .leadMag => { c with leadMag := v.extractLsb' 0 3 }
  | .decelWin => { c with decelWin := v.extractLsb' 0 16 }
  | .settle => { c with settle := v }
  | .dutyInit => { c with dutyInit := clamp01 v }
  | .homeDuty => { c with homeDuty := clamp01 v }

/-- `DRIVE(d, u)` (R125): the drivers outside the new pattern go off now, the pattern and the duty wait for ONCOMMIT. -/
def driveLegs (d : DriveState) (u : NumWord) (s : State) : State :=
  { s with
    driveState := d
    out := { s.out with
      outLegs := s.out.outLegs &&& driveTable d
      pendPat := driveTable d
      pendDuty := u
      onPend := true } }

/-- `ONCOMMIT` (R126): the pending pattern and duty are loaded. -/
def turnOn (s : State) : State :=
  { s with out := { s.out with outLegs := s.out.pendPat, outDuty := s.out.pendDuty, onPend := false } }

/-- `COMMUTATE(st)` (R145). -/
def commutateTo (st : RotorState) (s : State) : State :=
  driveLegs (commandedState s st) (dutyEff s) { s with sensor := { s.sensor with rotorPrev := st } }

/-- `PROFILE` (R196) of the budget state `b`. -/
def profileOf (b : Budget) : Option NumWord :=
  let m := b.rem.toInt.natAbs
  if b.budgetOn = false ∨ b.win = 0 ∨ b.win.toNat ≤ m then some (BitVec.ofInt 32 numOne)
  else (ratio m b.win.toNat).map fun f => clamp01 (numMul f f)

end Sys2Proof.Machine
end

