-- ==== Sys2Proof/Machine/Budget.lean ====
section
/-! DEFINITION. RotationBudgetController (spec/45_budget.md): BUDGET, PROFILE. -/
namespace Sys2Proof.Machine

/-- One step of the counter toward zero (R193). -/
def countStep (rem : Count) : Count :=
  if 0 < rem.toInt then rem - 1 else if rem.toInt < 0 then rem + 1 else rem

/-- BUDGET (R191): arm at the midpoint, consume and count at the reference state, `done` at zero (R194). -/
def execBudget (a : RotorState) (s : State) : Result :=
  if s.budget.budgetOn = false then .next s
  else if 3 ≤ a.toNat ∧ s.budget.latch = false then
    .next { s with budget := { s.budget with latch := true } }
  else if a = 0 ∧ s.budget.latch = true then
    let b := { s.budget with latch := false, rem := countStep s.budget.rem }
    withQuotient (profileOf b) fun p =>
      .next { s with budget := { b with prof := p, done := if b.rem = 0 then true else b.done } }
  else .next s

/-- PROFILE (R196): no state of the CORE is written; the factor stands in the model's `result` (notes/assumptions/3.md). -/
def execProfile (s : State) : Result :=
  withQuotient (profileOf s.budget) fun p => .next { s with result := .factor p }

end Sys2Proof.Machine
end

