-- ==== Sys2Proof/Machine/Velocity.lean ====
section
/-! DEFINITION. The time base and VelocityEstimator (spec/43_velocity.md): TICK, BOOKKEEP, REFVISIT. -/
namespace Sys2Proof.Machine

/-- TICK (R160): `now` plus one, modulo `2^32`. -/
def execTick (s : State) : Result := .next { s with now := s.now + 1 }

/-- The publication of R164 and R167: the velocity `v` of the interval `iv`, with `PID_LATENCY` as an argument. -/
def publish (latency : BitVec 8) (iv : Ticks) (v : NumWord) (s : State) : State :=
  { s with est := { s.est with
      velocity := v
      velTime := s.now
      pidCnt := if s.est.velPending then s.est.pidCnt else latency
      velPending := true
      lastIv := iv
      tRef := s.now } }

/-- REFVISIT (R164 to R168), with `PID_LATENCY` as an argument. -/
def refVisitWith (latency : BitVec 8) (s : State) : Result :=
  let iv := s.now - s.est.tRef
  if s.est.tRefValid = false then
    .next { s with est := { s.est with tRef := s.now, tRefValid := true } }
  else if iv = 0 then .next (raise .degenerateTimingSample s)
  else if iv = s.est.lastIv then
    .next (raise .degenerateTimingSample { s with est := { s.est with tRef := s.now } })
  else withQuotient (recip iv) fun v => .next (publish latency iv v s)

/-- REFVISIT with the CORE's latency. -/
def execRefvisit (s : State) : Result := refVisitWith Config.pidLatency s

/-- BOOKKEEP (R161): the estimator at aligned state 0, then the budget controller. -/
def execBookkeep (st : RotorState) (s : State) : Result :=
  let a := alignedState s.align.alignOff st
  andThen (if a = 0 then execRefvisit s else .next s) fun t => execBudget a t

end Sys2Proof.Machine
end

