-- ==== Sys2Proof/Machine/Commutation.lean ====
section
/-! DEFINITION. CommutationController (spec/42_commutation.md): EDGE, COMMUTATE, HOMING. -/
namespace Sys2Proof.Machine

/-- COMMUTATE (R145). -/
def execCommutate (st : RotorState) (s : State) : Result := .next (commutateTo st s)

/-- EDGE (R140 to R144) on the sample of the present cycle. -/
def execEdge (s : State) : Result :=
  let hall := s.env.pins.hall
  let s1 := { s with sensor := { s.sensor with hallQ := hall } }
  let r := decodeSample hall
  if s.align.homing = true ∨ s.align.homed = false then .next s1
  else if r.valid = false then .next (raise .invalidSensorReading s1)
  else if r.state = s.sensor.rotorPrev then .next s1
  else if s.budget.done = true then .next s1
  else andThen (execCommutate r.state s1) fun t => execBookkeep r.state t

/-- HOMING (R148 to R150) on the sample of the present cycle. -/
def execHoming (s : State) : Result :=
  let r := decodeSample s.env.pins.hall
  if s.align.settleCnt ≠ 0 then
    .next { s with align := { s.align with settleCnt := s.align.settleCnt - 1 } }
  else if r.valid = true then
    .next { s with align := { s.align with homing := false, alignOff := r.state, homed := true } }
  else
    .next (raise .homingFailed { s with align := { s.align with homing := false, homeFail := true } })

end Sys2Proof.Machine
end

