-- ==== Sys2Proof/Machine/Commands.lean ====
section
/-! DEFINITION. The host commands (spec/46_commands.md): NOP, HOME, START, WRCFG, CLRF, the three reserved opcodes, and their
dispatcher CMD. -/
namespace Sys2Proof.Machine

/-- NOP (R206): nothing. -/
def execNop (s : State) : Result := .next s

/-- HOME (R207). -/
def execHome (s : State) : Result :=
  .next (driveLegs 0 s.cfg.homeDuty
    { s with
      align := { s.align with homing := true, homed := false, homeFail := false, settleCnt := s.cfg.settle }
      sensor := { s.sensor with rotorPrev := 7 } })

/-- The session set-up of START (R210), before the kick. The profile factor is set by the caller. -/
def loadSession (rot vel : NumWord) (s : State) : State :=
  let n := rotationCount rot
  { s with
    dir := if vel.toInt < 0 then .reverse else .forward
    pid := { targetMag := numAbs vel, integ := 0, errPrev := 0, tPrev := s.now, duty := s.cfg.dutyInit }
    est := { s.est with velPending := false, pidCnt := 0 }
    budget := { s.budget with
      targetCnt := n, rem := n, latch := false, done := false, budgetOn := decide (n ≠ 0)
      win := sessionWindow s.cfg.decelWin n }
    sensor := { s.sensor with rotorPrev := 7 } }

/-- The START kick (R212): one commutation from the sample of the present cycle, without bookkeeping. -/
def kickFrom (hall : Sample) (s : State) : State :=
  let r := decodeSample hall
  if r.valid = true then commutateTo r.state s else raise .invalidSensorReading s

/-- START (R210) with `KICK_ON_START` as an argument. -/
def startWith (kick : Bool) (rot vel : NumWord) (s : State) : Result :=
  let s1 := loadSession rot vel s
  withQuotient (profileOf s1.budget) fun p =>
    let s2 := { s1 with budget := { s1.budget with prof := p } }
    if s2.align.homed = true ∧ kick = true then .next (kickFrom s2.env.pins.hall s2) else .next s2

/-- START (R210). -/
def execStart (rot vel : NumWord) (s : State) : Result := startWith Config.kickOnStart rot vel s

/-- WRCFG (R213): a register is written, or a reserved index raises MalformedCommand (R216). -/
def execWrcfg (i : CfgIndex) (v : Word) (s : State) : Result :=
  match i with
  | .reg r => .next { s with cfg := cfgWrite r v s.cfg }
  | .reserved _ => .next (raise .malformedCommand s)

/-- CLRF (R218). -/
def execClrf (m : BitVec 4) (s : State) : Result := .next (acknowledge m s)

/-- A reserved opcode (R220): consumed, MalformedCommand raised. -/
def malformedOpcode (s : State) : Result := .next (raise .malformedCommand s)

/-- Reserved opcode 5 (R220). -/
def execRsv5 (s : State) : Result := malformedOpcode s

/-- Reserved opcode 6 (R220). -/
def execRsv6 (s : State) : Result := malformedOpcode s

/-- Reserved opcode 7 (R220). -/
def execRsv7 (s : State) : Result := malformedOpcode s

/-- CMD (R205): decodes the command word of the present cycle and runs its row. -/
def execCmd (s : State) : Result :=
  match decodeCommand s.env.pins.cmd with
  | .nop => execNop s
  | .home => execHome s
  | .start rot vel => execStart rot vel s
  | .wrcfg i v => execWrcfg i v s
  | .clrf m => execClrf m s
  | .rsv5 => execRsv5 s
  | .rsv6 => execRsv6 s
  | .rsv7 => execRsv7 s

end Sys2Proof.Machine
end

