-- ==== Sys2Proof/Machine/DecoderDrive.lean ====
section
/-! DEFINITION. RotorStateDecoder and DriveTable (spec/41_decoder_drive.md): DECODE, DRIVE, ONCOMMIT. -/
namespace Sys2Proof.Machine

/-- DECODE (R120): no state of the CORE is written; the result stands in the model's `result` (notes/assumptions/3.md). -/
def execDecode (raw : Sample) (s : State) : Result :=
  let r := decodeSample raw
  .next { s with result := .decoded r.valid r.state }

/-- DRIVE (R125). -/
def execDrive (d : DriveState) (u : NumWord) (s : State) : Result := .next (driveLegs d u s)

/-- ONCOMMIT (R126). -/
def execOncommit (s : State) : Result := .next (turnOn s)

end Sys2Proof.Machine
end

