-- ==== Sys2Proof/Machine/Pid.lean ====
section
/-! DEFINITION. VelocityController (spec/44_pid.md): PIDSTEP, PID. -/
namespace Sys2Proof.Machine

/-- The output sum of R181, left to right, one rounding and one saturation per primitive. -/
def pidOutput (c : CfgRegs) (e integ deriv : NumWord) : NumWord :=
  numAdd (numAdd (numMul c.kp e) (numMul c.ki integ)) (numMul c.kd deriv)

/-- The writes of one evaluation (R176), given its error, its new integral and its derivative. -/
def pidCommit (e integ deriv : NumWord) (s : State) : State :=
  { s with pid := { s.pid with
      integ := integ
      duty := clamp01 (numAdd s.pid.duty (pidOutput s.cfg e integ deriv))
      errPrev := e
      tPrev := s.est.velTime } }

/-- PID (R176): a zero `dt` skips the derivative and raises DegenerateTimingSample (R178). -/
def execPid (s : State) : Result :=
  let e := numSub s.pid.targetMag s.est.velocity
  let dt := ticks2num (s.est.velTime - s.pid.tPrev)
  let integ := clampI (numAdd s.pid.integ (numMul e dt)) s.cfg.iMax
  if dt = 0 then .next (pidCommit e integ 0 (raise .degenerateTimingSample s))
  else withQuotient (numDiv (numSub e s.pid.errPrev) dt) fun deriv => .next (pidCommit e integ deriv s)

/-- PIDSTEP (R175): count down, or evaluate and consume the estimate. -/
def execPidstep (s : State) : Result :=
  if s.est.pidCnt = 0 then
    andThen (execPid s) fun t => .next { t with est := { t.est with velPending := false } }
  else .next { s with est := { s.est with pidCnt := s.est.pidCnt - 1 } }

end Sys2Proof.Machine
end

