-- ==== Sys2Proof/Machine/ResetOp.lean ====
section
/-! DEFINITION. RESET (spec/70_reset_and_hazards.md). -/
namespace Sys2Proof.Machine

/-- RESET (R260): every state element takes its reset value, whatever the state and the other inputs are. The environment is no
state of the CORE and goes on. -/
def execReset (s : State) : Result := .next { State.reset with env := s.env }

end Sys2Proof.Machine
end

