-- ==== Sys2Proof/Machine/Dispatch.lean ====
section
/-! DEFINITION. One arm per operation of spec/opcode_table.json, in the table's order. -/
namespace Sys2Proof.Machine

def exec (i : Instr) (s : State) : Host.Outcome State Fault Refusal :=
  match i with
  | .nop => Sys2Proof.Machine.execNop s
  | .home => Sys2Proof.Machine.execHome s
  | .start rot vel => Sys2Proof.Machine.execStart rot vel s
  | .wrcfg index value => Sys2Proof.Machine.execWrcfg index value s
  | .clrf mask => Sys2Proof.Machine.execClrf mask s
  | .rsv5 => Sys2Proof.Machine.execRsv5 s
  | .rsv6 => Sys2Proof.Machine.execRsv6 s
  | .rsv7 => Sys2Proof.Machine.execRsv7 s
  | .reset => Sys2Proof.Machine.execReset s
  | .oncommit => Sys2Proof.Machine.execOncommit s
  | .homing => Sys2Proof.Machine.execHoming s
  | .edge => Sys2Proof.Machine.execEdge s
  | .pidstep => Sys2Proof.Machine.execPidstep s
  | .cmd => Sys2Proof.Machine.execCmd s
  | .tick => Sys2Proof.Machine.execTick s
  | .decode raw => Sys2Proof.Machine.execDecode raw s
  | .drive d u => Sys2Proof.Machine.execDrive d u s
  | .commutate st => Sys2Proof.Machine.execCommutate st s
  | .bookkeep st => Sys2Proof.Machine.execBookkeep st s
  | .refvisit => Sys2Proof.Machine.execRefvisit s
  | .pid => Sys2Proof.Machine.execPid s
  | .budget a => Sys2Proof.Machine.execBudget a s
  | .profile => Sys2Proof.Machine.execProfile s

end Sys2Proof.Machine
end

