-- ==== Sys2Proof/Machine/Ports.lean ====
section
/-! DEFINITION. The outputs of the CORE as functions of the state (R80, R111: a Moore machine), the register map and its read
port (R60 to R62). -/
namespace Sys2Proof.Machine

/-- `cmd_ready = not homing` (R80, R113). -/
def cmdReady (s : State) : Bool := !s.align.homing

/-- `drv_on` (R131). -/
def drvOn (s : State) : Pattern := s.out.outLegs

/-- `drv_duty[j]` (R131): the shared duty on a driver that is on, 0 on the others. -/
def drvDuty (s : State) (j : Fin 6) : NumWord := if s.out.outLegs.getLsbD j then s.out.outDuty else 0

/-- The `homed` pin (R80). -/
def homedPin (s : State) : Bool := s.align.homed

/-- The `home_fail` pin (R80). -/
def homeFailPin (s : State) : Bool := s.align.homeFail

/-- The `done` pin (R80, R204). -/
def donePin (s : State) : Bool := s.budget.done

/-- The `flags` pins (R80). -/
def flagsPins (s : State) : BitVec 4 := s.flags

/-- One status bit in its place of a word. -/
def bitAt (n : Nat) (b : Bool) : Word := if b then 1#32 <<< n else 0

/-- Entry 16, STATUS (R62). -/
def statusWord (s : State) : Word :=
  bitAt 0 s.align.homed ||| bitAt 1 s.align.homing ||| bitAt 2 s.align.homeFail ||| bitAt 3 (decide (s.dir = .reverse)) |||
  bitAt 4 s.budget.budgetOn ||| bitAt 5 s.budget.latch ||| bitAt 6 s.budget.done ||| bitAt 7 s.est.velPending |||
  bitAt 8 s.est.tRefValid ||| bitAt 9 s.out.onPend

/-- Entry 18, ROTOR (R62). -/
def rotorWord (s : State) : Word :=
  s.sensor.rotorPrev.setWidth 32 ||| (s.align.alignOff.setWidth 32 <<< 4) ||| (s.driveState.setWidth 32 <<< 8) |||
  (s.sensor.hallQ.setWidth 32 <<< 12)

/-- `x[i]`: the content of a register-map entry (R60, R61), zero-extended (R89). Reading changes nothing, so this is all there
is to a read. -/
def readEntry (s : State) (i : BitVec 5) : Word :=
  match i.toNat with
  | 0 => s.cfg.kp
  | 1 => s.cfg.ki
  | 2 => s.cfg.kd
  | 3 => s.cfg.iMax
  | 4 => s.cfg.leadMag.setWidth 32
  | 5 => s.cfg.decelWin.setWidth 32
  | 6 => s.cfg.settle
  | 7 => s.cfg.dutyInit
  | 8 => s.cfg.homeDuty
  | 16 => statusWord s
  | 17 => s.flags.setWidth 32
  | 18 => rotorWord s
  | 19 => s.out.outLegs.setWidth 32
  | 20 => s.out.outDuty
  | 21 => s.pid.duty
  | 22 => s.budget.prof
  | 23 => s.est.velocity
  | 24 => s.pid.targetMag
  | 25 => s.pid.integ
  | 26 => s.pid.errPrev
  | 27 => s.budget.rem
  | 28 => s.budget.targetCnt
  | 29 => s.budget.win.setWidth 32
  | 30 => s.now
  | 31 => s.est.lastIv
  | _ => 0

/-- `MemRead(addr, n)`, defined only for `n = 4`, where it means `x[addr]` (R15). -/
def memRead (s : State) (addr : BitVec 5) (n : Nat) : Option Word := if n = 4 then some (readEntry s addr) else none

/-- `MemWrite(addr, n, v)`, defined only for `n = 4` and `addr` in 0..8, where it means `x[addr] <- v` (R15, R63). -/
def memWrite (s : State) (addr : BitVec 5) (n : Nat) (v : Word) : Option State :=
  if n = 4 ∧ addr.toNat ≤ 8 then
    match cfgIndexOf (addr.setWidth 4) with
    | .reg r => some { s with cfg := cfgWrite r v s.cfg }
    | .reserved _ => none
  else none

end Sys2Proof.Machine
end

