-- ==== Sys2Proof/Machine/Cycle.lean ====
section
/-! DEFINITION. One clock cycle (spec/40_cycle_step.md): the inputs of the cycle are sampled, then the phases run in their fixed
order, each through `exec` (R110). -/
namespace Sys2Proof.Machine

/-- The input ports take the levels of the next cycle: the placed stimulus, or a free value where none is placed
(notes/assumptions/1.md). -/
def present (s : State) : State :=
  match s.env.script with
  | [] => { s with env := { s.env with pins := Config.freePins s.env.draws, draws := s.env.draws + 1 } }
  | p :: ps => { s with env := { s.env with pins := p, script := ps } }

/-- One phase: the operation runs if the phase's condition holds on the state the earlier phases left (R110). -/
def phase (condition : Bool) (i : Instr) (s : State) : Result := if condition then exec i s else .next s

/-- Phases P1 to P4: ONCOMMIT, HOMING, EDGE, PIDSTEP (R110). -/
def earlyPhases (s : State) : Result :=
  andThen (phase s.out.onPend .oncommit s) fun s1 =>
  andThen (phase s1.align.homing .homing s1) fun s2 =>
  andThen (phase (s2.env.pins.hall != s2.sensor.hallQ) .edge s2) fun s3 =>
  phase s3.est.velPending .pidstep s3

/-- `STEP(S, inputs)` of R110, for the inputs on `S`'s pins: reset alone, or the six phases. The command phase is guarded by
`cmd_ready` as it was before any phase (R113). -/
def cycle (s : State) : Result :=
  if s.env.pins.rst then exec .reset s
  else
    andThen (earlyPhases s) fun s4 =>
    andThen (phase (s4.env.pins.cmdValid && cmdReady s) .cmd s4) fun s5 =>
    exec .tick s5

end Sys2Proof.Machine
end

