-- ==== Sys2Proof/Machine/Step.lean ====
section
/-! DEFINITION. The step of the machine, and where it fetches a command. -/
namespace Sys2Proof.Machine

/-- One step is one clock cycle (R110, R111): the input ports take the cycle's levels, and the cycle runs. -/
def step (s : State) : Host.Outcome State Fault Refusal := cycle (present s)

/-- The state whose next step runs the command word `w`: the next cycle presents the word on the command port, with `rst = 0` and
an unchanged sample. A command is accepted only while not homing (R113), so `homing` is cleared (notes/assumptions/5.md). -/
def State.withFetchWord (s : State) (nbits w : Nat) : State :=
  { s with
    align := { s.align with homing := false }
    env := { s.env with
      script := { rst := false, hall := s.sensor.hallQ, cmdValid := true, cmd := BitVec.ofNat 67 (w % 2 ^ nbits) } :: s.env.script } }

end Sys2Proof.Machine
end

