-- ==== Sys2Proof/Safety.lean ====
section
/-! DEFINITION. The terms the statements use: the operating modes (R50), what a legal state is (R53 to R56, R58), the inputs of
the next cycle, runs of several cycles, and integer forms of the `Num` primitives (R13). -/
namespace Sys2Proof.Machine

/-! ## Modes -/

/-- The operating modes (R50). -/
inductive Mode where
  | unhomed
  | homing
  | tracking
  | held
  deriving DecidableEq, Repr

/-- The mode that the bits `homed`, `homing`, `done` select (R50). -/
def modeOf (s : State) : Mode :=
  if s.align.homing then .homing
  else if s.align.homed then (if s.budget.done then .held else .tracking)
  else .unhomed

/-! ## Legal states -/

/-- A duty or factor in [0, 1] (R54). -/
abbrev InUnit (u : NumWord) : Prop := 0 ≤ u.toInt ∧ u.toInt ≤ 65536

/-- No leg has both its drivers on (R53): bits `2k` and `2k+1`, counting the legs from 0. -/
abbrev NoShootThrough (p : Pattern) : Prop :=
  ¬(p.getLsbD 0 = true ∧ p.getLsbD 1 = true) ∧ ¬(p.getLsbD 2 = true ∧ p.getLsbD 3 = true) ∧
  ¬(p.getLsbD 4 = true ∧ p.getLsbD 5 = true)

/-- `rotor_prev` is a rotor state or None, `align_off` a rotor state (R21, R22). -/
abbrev RotorLegal (s : State) : Prop :=
  (s.sensor.rotorPrev.toNat ≤ 5 ∨ s.sensor.rotorPrev = 7) ∧ s.align.alignOff.toNat ≤ 5

/-- The driver flags never short a leg, and what waits to be turned on is a table entry (R24, R53). -/
abbrev OutputsLegal (s : State) : Prop := NoShootThrough s.out.outLegs ∧ s.out.pendPat ∈ driveTableList

/-- Every duty is in [0, 1] (R54). -/
abbrev DutiesLegal (s : State) : Prop :=
  InUnit s.pid.duty ∧ InUnit s.budget.prof ∧ InUnit s.out.pendDuty ∧ InUnit s.out.outDuty ∧ InUnit s.cfg.dutyInit ∧
  InUnit s.cfg.homeDuty

/-- The magnitudes are not negative, and the PID countdown is within its latency (R26, R27, R46). -/
abbrev MagnitudesLegal (s : State) : Prop :=
  0 ≤ s.est.velocity.toInt ∧ 0 ≤ s.pid.targetMag.toInt ∧ 0 ≤ s.cfg.iMax.toInt ∧
  s.est.pidCnt.toNat ≤ Config.pidLatency.toNat

/-- The budget invariant (R55). -/
abbrev BudgetLegal (b : Budget) : Prop :=
  (b.budgetOn = true ∧ b.done = false →
    b.rem ≠ 0 ∧ Int.sign b.rem.toInt = Int.sign b.targetCnt.toInt ∧ b.rem.toInt.natAbs ≤ b.targetCnt.toInt.natAbs) ∧
  (b.done = true → b.budgetOn = true ∧ b.rem = 0) ∧
  (b.budgetOn = false → b.rem = 0 ∧ b.done = false ∧ b.prof = 0x00010000)

/-- The homing invariant, its part about one state (R56). -/
abbrev HomingLegal (s : State) : Prop := s.align.homing = true → s.align.homed = false

/-- The legal-value invariant of R58, with the invariants R53 to R56. -/
abbrev Legal (s : State) : Prop :=
  RotorLegal s ∧ OutputsLegal s ∧ DutiesLegal s ∧ MagnitudesLegal s ∧ BudgetLegal s.budget ∧ HomingLegal s

/-! ## Cycles and runs -/

/-- The levels on the input ports in the cycle that the next step runs. -/
def nextPins (s : State) : Pins := (present s).env.pins

/-- The next step accepts the command `i`: no reset, a command presented, and not homing (R113). -/
abbrev Accepts (s : State) (i : Instr) : Prop :=
  (nextPins s).rst = false ∧ (nextPins s).cmdValid = true ∧ s.align.homing = false ∧ decodeWord (nextPins s).cmd = i

/-- `k` cycles. -/
def runSteps : Nat → State → Result
  | 0, s => .next s
  | k + 1, s => andThen (step s) (runSteps k)

/-- The stimulus of the coming cycles. -/
def withScript (s : State) (ps : List Pins) : State := { s with env := { s.env with script := ps } }

/-- A cycle without reset in which neither HOME nor START is presented. -/
abbrev Quiet (p : Pins) : Prop :=
  p.rst = false ∧ (p.cmdValid = true → decodeWord p.cmd ≠ .home ∧ ∀ rot vel, decodeWord p.cmd ≠ .start rot vel)

/-! ## Integer forms of the number format -/

/-- Saturation of a count of `2^-16` steps into the range of `Num` (R13). -/
def satInt (x : Int) : Int := max (-2147483648) (min 2147483647 x)

/-- Clamping of a count of `2^-16` steps to [0, 1] (R13). -/
def unitInt (x : Int) : Int := max 0 (min 65536 x)

/-- The word of a count of `2^-16` steps. -/
def wordOf (x : Int) : NumWord := BitVec.ofInt 32 x

/-- The phase lead as R145 writes it. -/
def leadInt (s : State) : Int := if s.dir = .reverse then -(s.cfg.leadMag.toNat : Int) else s.cfg.leadMag.toNat

end Sys2Proof.Machine
end

