-- ==== Sys2Proof/Certificates/Slice0/Obligations.lean ====
section
/-! DEFINITION. The statements for the provers, in the order of the spec's files: encoding, decoder and driver, commutation and
homing, velocity, PID, budget, commands, reset, the step and the properties of runs. -/
open Sys2Proof Sys2Proof.Machine

/-! ## Encoding (30_encoding.md) -/

/-- Decoding the word of a well-formed command gives the command back: no bit of an operand is dropped (R90 to R92). -/
def Obligations.DecodeReadsBackEncode : Prop :=
  ∀ (i : Instr) (w : CmdWord), WellFormed i = true → encode i = some w → decodeWord w = i

/-- R91, R92: the row of a word is chosen by bits 66:64, and its operands are the fields of bits 63:32 and 31:0, taken whole but
for WRCFG's index (`a[3:0]`) and CLRF's mask (`b[3:0]`). -/
def Obligations.EveryWordSelectsItsRow : Prop :=
  ∀ w : CmdWord,
    let op := w.toNat / 2 ^ 64
    let a := w.toNat / 2 ^ 32 % 2 ^ 32
    let b := w.toNat % 2 ^ 32
    op ≤ 7 ∧
    (op = 0 → decodeWord w = .nop) ∧
    (op = 1 → decodeWord w = .home) ∧
    (op = 2 → decodeWord w = .start (BitVec.ofNat 32 a) (BitVec.ofNat 32 b)) ∧
    (op = 3 → ∀ r, [CfgReg.kp, .ki, .kd, .iMax, .leadMag, .decelWin, .settle, .dutyInit, .homeDuty][a % 16]? = some r →
      decodeWord w = .wrcfg (.reg r) (BitVec.ofNat 32 b)) ∧
    (op = 3 → 9 ≤ a % 16 → decodeWord w = .wrcfg (.reserved (BitVec.ofNat 4 (a % 16))) (BitVec.ofNat 32 b)) ∧
    (op = 4 → decodeWord w = .clrf (BitVec.ofNat 4 (b % 16))) ∧
    (op = 5 → decodeWord w = .rsv5) ∧
    (op = 6 → decodeWord w = .rsv6) ∧
    (op = 7 → decodeWord w = .rsv7)

/-- Words written out from R91 and 46_commands.md decode to the commands they stand for. -/
def Obligations.WrittenWordsDecode : Prop :=
  decodeWord 0x0FFFFFFFFFFFFFFFF = .nop ∧
  decodeWord 0x1DEADBEEF12345678 = .home ∧
  decodeWord 0x2FFFD4000FFF60000 = .start 0xFFFD4000 0xFFF60000 ∧
  decodeWord 0x3FFFFFFF100004000 = .wrcfg (.reg .ki) 0x4000 ∧
  decodeWord 0x30000000912345678 = .wrcfg (.reserved 9) 0x12345678 ∧
  decodeWord 0x400000000FFFFFFF5 = .clrf 5 ∧
  decodeWord 0x7FFFFFFFFFFFFFFFF = .rsv7

/-- Nine bytes that hold a command word, lowest byte first, decode to the word's row; every other string of bytes is refused. The
byte order is the model's choice (notes/assumptions/4.md). -/
def Obligations.BytesOfAWordDecodeToItsRow : Prop :=
  (∀ w : CmdWord, decodeBytes (natToBytes 9 w.toNat) = .ok (decodeWord w)) ∧
  (∀ bs : List Byte, bs.length ≠ 9 → decodeBytes bs = .error (.wrongLength bs.length)) ∧
  (∀ bs : List Byte, bs.length = 9 → 2 ^ 67 ≤ bytesToNat bs → decodeBytes bs = .error .bitAboveThePort)

/-! ## Decoder and driver (41_decoder_drive.md) -/

/-- DECODE completes for every sample and gives the pair of R121; it changes no state of the CORE. That the pair is left in `result` is
the model's choice (notes/assumptions/3.md). -/
def Obligations.DecodeGivesValidityAndState : Prop :=
  ∀ (raw : Sample) (s : State),
    exec (.decode raw) s = .next { s with
      result := .decoded (decide (1 ≤ raw.toNat ∧ raw.toNat ≤ 6)) ([7, 5, 3, 4, 1, 0, 2, 7].getD raw.toNat 7) }

/-- R86: what the source requires of the drive table. -/
def Obligations.DriveTableMeetsItsConstraints : Prop :=
  driveTable 6 = 0 ∧ driveTable 7 = 0 ∧
  (∀ d : DriveState, d.toNat ≤ 5 →
    ([0, 2, 4].filter fun j => (driveTable d).getLsbD j).length = 1 ∧
    ([1, 3, 5].filter fun j => (driveTable d).getLsbD j).length = 1 ∧ NoShootThrough (driveTable d)) ∧
  (∀ d : DriveState, d.toNat ≤ 5 →
    let changed := driveTable d ^^^ driveTable (BitVec.ofNat 3 ((d.toNat + 1) % 6))
    (d.toNat % 2 = 0 → ([1, 3, 5].filter fun j => changed.getLsbD j).length = 2 ∧ changed &&& 0x15 = 0) ∧
    (d.toNat % 2 = 1 → ([0, 2, 4].filter fun j => changed.getLsbD j).length = 2 ∧ changed &&& 0x2A = 0)) ∧
  (∀ p q : Pattern, NoShootThrough p → NoShootThrough (p &&& q))

/-- DRIVE (R125): the drivers outside the new pattern go off, the rest waits, and nothing else changes. -/
def Obligations.DriveResult : Prop :=
  ∀ (d : DriveState) (u : NumWord) (s : State), WellFormed (.drive d u) = true →
    let pat : Pattern := [0x12, 0x18, 0x09, 0x21, 0x24, 0x06, 0, 0].getD d.toNat 0
    exec (.drive d u) s = .next { s with
      driveState := d
      out := { outLegs := s.out.outLegs &&& pat, outDuty := s.out.outDuty, pendPat := pat, pendDuty := u, onPend := true } }

/-- ONCOMMIT (R126). -/
def Obligations.OncommitResult : Prop :=
  ∀ s : State,
    exec .oncommit s = .next { s with
      out := { outLegs := s.out.pendPat, outDuty := s.out.pendDuty, pendPat := s.out.pendPat, pendDuty := s.out.pendDuty,
               onPend := false } }

/-- Off before on (R129): DRIVE turns off every driver outside the new pattern and turns none on; the ONCOMMIT that follows turns on
exactly the new pattern. -/
def Obligations.DriveTurnsOffBeforeOn : Prop :=
  ∀ (d : DriveState) (u : NumWord) (s : State), WellFormed (.drive d u) = true →
    ∃ t t', exec (.drive d u) s = .next t ∧ exec .oncommit t = .next t' ∧
      ∀ j : Nat, j < 6 →
        ((drvOn t).getLsbD j = true → (drvOn s).getLsbD j = true) ∧
        ((driveTable d).getLsbD j = false → (drvOn t).getLsbD j = false) ∧
        ((driveTable d).getLsbD j = true → (drvOn s).getLsbD j = false → (drvOn t).getLsbD j = false) ∧
        (drvOn t').getLsbD j = (driveTable d).getLsbD j

/-- On the pins of a legal state (R131 with R53, R54): every driver's duty is in [0, 1], an unenergised driver's is 0, and of the two
drivers of a leg one at least is at 0. -/
def Obligations.PinDutiesAreSafe : Prop :=
  ∀ s : State, Legal s →
    (∀ j : Fin 6, InUnit (drvDuty s j) ∧ ((drvOn s).getLsbD j = false → drvDuty s j = 0) ∧
      ((drvOn s).getLsbD j = true → drvDuty s j = s.out.outDuty)) ∧
    (drvDuty s 0 = 0 ∨ drvDuty s 1 = 0) ∧ (drvDuty s 2 = 0 ∨ drvDuty s 3 = 0) ∧ (drvDuty s 4 = 0 ∨ drvDuty s 5 = 0)

/-! ## Commutation and homing (42_commutation.md) -/

/-- COMMUTATE (R145) completes for every rotor state and every state of the machine: the drive state is the floored remainder, in 0..5 also for a negative sum (R279), and
the duty handed over is the clamped product of `duty` and `prof` (R127). -/
def Obligations.CommutateResult : Prop :=
  ∀ (st : RotorState) (s : State), WellFormed (.commutate st) = true →
    ∃ (d : DriveState) (u : NumWord),
      (d.toNat : Int) = ((st.toNat : Int) - s.align.alignOff.toNat + leadInt s + 6) % 6 ∧ d.toNat ≤ 5 ∧
      u.toInt = unitInt (s.pid.duty.toInt * s.budget.prof.toInt / 65536) ∧
      exec (.commutate st) s = .next { s with
        sensor := { s.sensor with rotorPrev := st }
        driveState := d
        out := { outLegs := s.out.outLegs &&& driveTable d, outDuty := s.out.outDuty, pendPat := driveTable d, pendDuty := u,
                 onPend := true } }

/-- R141: while Unhomed or Homing an EDGE only updates `hall_q`. -/
def Obligations.EdgeOnlyTracksSampleBeforeHoming : Prop :=
  ∀ s : State, s.align.homed = false ∨ s.align.homing = true →
    exec .edge s = .next { s with sensor := { s.sensor with hallQ := s.env.pins.hall } }

/-- R142: an EDGE on raw 0 or 7 sets `ERR_INVALID` and, but for `hall_q`, does nothing else; also in Held mode. -/
def Obligations.EdgeOnInvalidSample : Prop :=
  ∀ s : State, s.align.homed = true → s.align.homing = false → s.env.pins.hall = 0 ∨ s.env.pins.hall = 7 →
    exec .edge s = .next { s with
      sensor := { s.sensor with hallQ := s.env.pins.hall }
      flags := s.flags ||| 0b0001 }

/-- R143, R144: an EDGE whose decoded state is `rotor_prev`, and every valid EDGE in Held mode, only updates `hall_q`. -/
def Obligations.EdgeWithoutChangeOrHeldOnlyTracksSample : Prop :=
  ∀ s : State, s.align.homed = true → s.align.homing = false → 1 ≤ s.env.pins.hall.toNat → s.env.pins.hall.toNat ≤ 6 →
    (decodeSample s.env.pins.hall).state = s.sensor.rotorPrev ∨ s.budget.done = true →
    exec .edge s = .next { s with sensor := { s.sensor with hallQ := s.env.pins.hall } }

/-- R140: in Tracking mode an EDGE into another valid state commutates for it and then keeps the books. -/
def Obligations.EdgeCommutatesThenBooks : Prop :=
  ∀ s : State, modeOf s = .tracking → 1 ≤ s.env.pins.hall.toNat → s.env.pins.hall.toNat ≤ 6 →
    (decodeSample s.env.pins.hall).state ≠ s.sensor.rotorPrev →
    ∃ t u, exec (.commutate (decodeSample s.env.pins.hall).state)
        { s with sensor := { s.sensor with hallQ := s.env.pins.hall } } = .next t ∧
      exec (.bookkeep (decodeSample s.env.pins.hall).state) t = .next u ∧ exec .edge s = .next u

/-- HOMING (R148 to R150): the settling delay counts down; at 0 a valid sample is captured and an Invalid one fails the homing. -/
def Obligations.HomingResult : Prop :=
  ∀ s : State,
    let hall := s.env.pins.hall
    (s.align.settleCnt ≠ 0 →
      exec .homing s = .next { s with align := { s.align with settleCnt := s.align.settleCnt - 1 } }) ∧
    (s.align.settleCnt = 0 → 1 ≤ hall.toNat → hall.toNat ≤ 6 →
      exec .homing s = .next { s with
        align := { s.align with homing := false, homed := true, alignOff := (decodeSample hall).state } }) ∧
    (s.align.settleCnt = 0 → hall = 0 ∨ hall = 7 →
      exec .homing s = .next { s with
        align := { s.align with homing := false, homeFail := true }
        flags := s.flags ||| 0b0010 })

/-- The homing timeline (R151): a HOME accepted with `SETTLE = N` makes the machine homing for the `N` cycles `waits`, whatever the
sample does, and the capture is in the cycle after them, on that cycle's sample. -/
def Obligations.HomingTimeline : Prop :=
  ∀ (s : State) (first capture : Pins) (waits rest : List Pins),
    s.align.homing = false → first.rst = false → first.cmdValid = true → decodeWord first.cmd = .home →
    waits.length = s.cfg.settle.toNat → (∀ p ∈ waits, p.rst = false) → capture.rst = false →
    (∀ k, k ≤ waits.length → ∃ u, runSteps (k + 1) (withScript s (first :: waits ++ capture :: rest)) = .next u ∧
      cmdReady u = false ∧ u.align.settleCnt.toNat = waits.length - k) ∧
    ∃ t, runSteps (waits.length + 2) (withScript s (first :: waits ++ capture :: rest)) = .next t ∧ cmdReady t = true ∧
      ((decodeSample capture.hall).valid = true →
        t.align.homed = true ∧ t.align.homeFail = false ∧ t.align.alignOff = (decodeSample capture.hall).state) ∧
      ((decodeSample capture.hall).valid = false →
        t.align.homed = false ∧ t.align.homeFail = true ∧ t.align.alignOff = s.align.alignOff ∧ t.flags.getLsbD 1 = true)

/-- R22, R149: a step changes `align_off` only by reset or by the capture of a valid state. -/
def Obligations.AlignOffIsWrittenOnlyByCapture : Prop :=
  ∀ s t : State, step s = .next t → t.align.alignOff ≠ s.align.alignOff →
    (nextPins s).rst = true ∨
    (s.align.homing = true ∧ s.align.settleCnt = 0 ∧ (decodeSample (nextPins s).hall).valid = true ∧
      t.align.alignOff = (decodeSample (nextPins s).hall).state ∧ t.align.homed = true)

/-! ## Velocity (43_velocity.md) -/

/-- TICK (R160). -/
def Obligations.TickResult : Prop :=
  ∀ s : State, exec .tick s = .next { s with now := BitVec.ofNat 32 ((s.now.toNat + 1) % 2 ^ 32) }

/-- BOOKKEEP (R161): the estimator at aligned state 0, then the budget controller; it completes for every state. -/
def Obligations.BookkeepResult : Prop :=
  ∀ (st : RotorState) (s : State), WellFormed (.bookkeep st) = true →
    let a := ((st.toNat : Int) - s.align.alignOff.toNat + 6) % 6
    ∃ t u, (a = 0 → exec .refvisit s = .next t) ∧ (a ≠ 0 → t = s) ∧
      exec (.budget (BitVec.ofInt 3 a)) t = .next u ∧ exec (.bookkeep st) s = .next u

/-- REFVISIT (R164 to R168): the unmeasured, the zero, the unchanged and the publishing case. -/
def Obligations.RefvisitResult : Prop :=
  ∀ s : State,
    let iv := (s.now.toNat + 2 ^ 32 - s.est.tRef.toNat) % 2 ^ 32
    (s.est.tRefValid = false →
      exec .refvisit s = .next { s with est := { s.est with tRef := s.now, tRefValid := true } }) ∧
    (s.est.tRefValid = true → iv = 0 → exec .refvisit s = .next { s with flags := s.flags ||| 0b0100 }) ∧
    (s.est.tRefValid = true → iv ≠ 0 → iv = s.est.lastIv.toNat →
      exec .refvisit s = .next { s with est := { s.est with tRef := s.now }, flags := s.flags ||| 0b0100 }) ∧
    (s.est.tRefValid = true → iv ≠ 0 → iv ≠ s.est.lastIv.toNat →
      exec .refvisit s = .next { s with est :=
        { tRef := s.now, tRefValid := true, lastIv := BitVec.ofNat 32 iv,
          velocity := wordOf (satInt ((1000000 * 65536 / iv : Nat) : Int)), velTime := s.now, velPending := true,
          pidCnt := if s.est.velPending then s.est.pidCnt else Config.pidLatency } })

/-- R167, R169: a velocity that REFVISIT publishes is at least 15/65536, and it is `NUM_MAX` exactly for intervals up to 30 ticks. -/
def Obligations.PublishedVelocityRange : Prop :=
  ∀ s : State, s.est.tRefValid = true → s.now ≠ s.est.tRef → s.now - s.est.tRef ≠ s.est.lastIv →
    ∃ t, exec .refvisit s = .next t ∧ 15 ≤ t.est.velocity.toInt ∧
      (t.est.velocity = 0x7FFFFFFF ↔ (s.now - s.est.tRef).toNat ≤ 30)

/-- R171: in Held mode and while Unhomed or Homing a cycle leaves the estimator's measurement alone, whatever command it runs. A cycle
that begins in Homing mode leaves that mode for Tracking, in which an EDGE of the same cycle may measure (R114), only by the capture of a
valid sample while `done` is 0; every other cycle of Homing mode is covered. -/
def Obligations.EstimatorRestsOutsideTracking : Prop :=
  ∀ s t : State,
    modeOf s = .unhomed ∨ modeOf s = .held ∨
      (modeOf s = .homing ∧
        (s.align.settleCnt ≠ 0 ∨ (decodeSample (nextPins s).hall).valid = false ∨ s.budget.done = true)) →
    (nextPins s).rst = false → step s = .next t →
    t.est.tRef = s.est.tRef ∧ t.est.tRefValid = s.est.tRefValid ∧ t.est.lastIv = s.est.lastIv ∧
    t.est.velocity = s.est.velocity ∧ t.est.velTime = s.est.velTime

/-! ## PID (44_pid.md) -/

/-- PIDSTEP (R175): it counts down while `pid_cnt` is not 0, then evaluates PID and consumes the estimate. -/
def Obligations.PidstepResult : Prop :=
  ∀ s : State,
    (s.est.pidCnt ≠ 0 → exec .pidstep s = .next { s with est := { s.est with pidCnt := s.est.pidCnt - 1 } }) ∧
    (s.est.pidCnt = 0 → ∃ t, exec .pid s = .next t ∧
      exec .pidstep s = .next { t with est := { t.est with velPending := false } })

/-- PID (R176 to R181), in integer counts of `2^-16`: the error, the interval, the clamped integral, the derivative (0 for a zero
interval, with `ERR_DEGEN`), the output sum and the clamped duty. R13 gives the integral clamp for a bound that is not negative, as
every legal state has it. -/
def Obligations.PidResult : Prop :=
  ∀ s : State, 0 ≤ s.cfg.iMax.toInt →
    let dk := (s.est.velTime.toNat + 2 ^ 32 - s.pid.tPrev.toNat) % 2 ^ 32
    let e := satInt (s.pid.targetMag.toInt - s.est.velocity.toInt)
    let dt : Int := ((dk * 65536 / 1000000 : Nat) : Int)
    let sum := satInt (s.pid.integ.toInt + satInt (e * dt / 65536))
    let integ := wordOf (max (-s.cfg.iMax.toInt) (min s.cfg.iMax.toInt sum))
    let deriv := if dt = 0 then 0 else satInt (satInt (e - s.pid.errPrev.toInt) * 65536 / dt)
    let p := satInt (s.cfg.kp.toInt * e / 65536)
    let i := satInt (s.cfg.ki.toInt * integ.toInt / 65536)
    let d := satInt (s.cfg.kd.toInt * deriv / 65536)
    let out := satInt (satInt (p + i) + d)
    exec .pid s = .next { s with
      pid := { targetMag := s.pid.targetMag, integ := integ, duty := wordOf (unitInt (satInt (s.pid.duty.toInt + out))),
               errPrev := wordOf e, tPrev := s.est.velTime }
      flags := if dt = 0 then s.flags ||| 0b0100 else s.flags }

/-- R177: whatever the error, the gains and the old duty, PID leaves a duty in [0, 1]. -/
def Obligations.PidDutyIsAlwaysClamped : Prop :=
  ∀ s : State, ∃ t, exec .pid s = .next t ∧ InUnit t.pid.duty

/-- R178, R280: with the two samples fewer than 16 ticks apart the derivative term is 0 and `ERR_DEGEN` is set; the integral keeps its
value, but for a re-clamp, the proportional and integral terms still act on the duty, and the error and the sample time are stored. From
16 ticks on the derivative term acts as well and no flag changes. The terms are in counts of `2^-16`. -/
def Obligations.PidSkipsDerivativeBelowSixteenTicks : Prop :=
  ∀ s : State,
    let dk := (s.est.velTime - s.pid.tPrev).toNat
    let dt : Int := ((dk * 65536 / 1000000 : Nat) : Int)
    let e := satInt (s.pid.targetMag.toInt - s.est.velocity.toInt)
    let p := satInt (s.cfg.kp.toInt * e / 65536)
    let i := fun t : State => satInt (s.cfg.ki.toInt * t.pid.integ.toInt / 65536)
    let d := satInt (s.cfg.kd.toInt * satInt (satInt (e - s.pid.errPrev.toInt) * 65536 / dt) / 65536)
    (dk ≤ 15 →
      ∃ t, exec .pid s = .next t ∧ t.flags = s.flags ||| 0b0100 ∧ t.pid.integ = clampI s.pid.integ s.cfg.iMax ∧
        t.pid.duty = wordOf (unitInt (satInt (s.pid.duty.toInt + satInt (p + i t)))) ∧
        t.pid.errPrev = wordOf e ∧ t.pid.tPrev = s.est.velTime) ∧
    (16 ≤ dk → 0 < dt ∧
      ∃ t, exec .pid s = .next t ∧ t.flags = s.flags ∧
        t.pid.duty = wordOf (unitInt (satInt (s.pid.duty.toInt + satInt (satInt (p + i t) + d)))) ∧
        t.pid.errPrev = wordOf e ∧ t.pid.tPrev = s.est.velTime)

/-- R179: with `I_MAX` not negative, PID leaves the integral in `[-I_MAX, I_MAX]`. -/
def Obligations.IntegralStaysWithinIMax : Prop :=
  ∀ s : State, 0 ≤ s.cfg.iMax.toInt →
    ∃ t, exec .pid s = .next t ∧ -s.cfg.iMax.toInt ≤ t.pid.integ.toInt ∧ t.pid.integ.toInt ≤ s.cfg.iMax.toInt

/-- R183: the first PID after a START depends on nothing of the old session: two machines with the same configuration and time that
start the same session and get the same first estimate hold the same PID state afterwards. -/
def Obligations.FirstPidForgetsTheOldSession : Prop :=
  ∀ (s₁ s₂ : State) (rot vel velocity : NumWord) (time : Ticks), s₁.cfg = s₂.cfg → s₁.now = s₂.now →
    ∃ t₁ t₂ u₁ u₂, exec (.start rot vel) s₁ = .next t₁ ∧ exec (.start rot vel) s₂ = .next t₂ ∧
      exec .pid { t₁ with est := { t₁.est with velocity := velocity, velTime := time } } = .next u₁ ∧
      exec .pid { t₂ with est := { t₂.est with velocity := velocity, velTime := time } } = .next u₂ ∧ u₁.pid = u₂.pid

/-! ## Rotation budget (45_budget.md) -/

/-- PROFILE (R196) completes for every state; the clamp never acts. That the factor is left in `result` is the model's choice
(notes/assumptions/3.md). -/
def Obligations.ProfileResult : Prop :=
  ∀ s : State,
    let m := s.budget.rem.toInt.natAbs
    let f := m * 65536 / s.budget.win.toNat
    ∃ p : NumWord, exec .profile s = .next { s with result := .factor p } ∧
      p.toInt = (if s.budget.budgetOn = false ∨ s.budget.win = 0 ∨ s.budget.win.toNat ≤ m then 65536
                 else ((f * f / 65536 : Nat) : Int))

/-- BUDGET (R191 to R194): nothing without a budget; the latch is armed at the midpoint; at the reference state a set latch is consumed,
the count moves one toward zero, the profile is taken of the new count, and `done` rises at zero. -/
def Obligations.BudgetResult : Prop :=
  ∀ (a : RotorState) (s : State), WellFormed (.budget a) = true →
    let b := s.budget
    let r := if 0 < b.rem.toInt then b.rem.toInt - 1 else if b.rem.toInt < 0 then b.rem.toInt + 1 else 0
    let b' := { b with latch := false, rem := BitVec.ofInt 32 r }
    (b.budgetOn = false → exec (.budget a) s = .next s) ∧
    (b.budgetOn = true → 3 ≤ a.toNat → exec (.budget a) s = .next { s with budget := { b with latch := true } }) ∧
    (b.budgetOn = true → a.toNat = 1 ∨ a.toNat = 2 → exec (.budget a) s = .next s) ∧
    (b.budgetOn = true → a = 0 → b.latch = false → exec (.budget a) s = .next s) ∧
    (b.budgetOn = true → a = 0 → b.latch = true →
      ∃ p, exec .profile { s with budget := b' } = .next { s with budget := b', result := .factor p } ∧
        exec (.budget a) s = .next { s with budget := { b' with prof := p, done := if r = 0 then true else b.done } })

/-- R193: in a cycle without reset and START the count stays, or a set latch is consumed and the count moves one toward zero. -/
def Obligations.CountMovesOnlyTowardZero : Prop :=
  ∀ s t : State, step s = .next t → (nextPins s).rst = false → (∀ rot vel, ¬Accepts s (.start rot vel)) →
    t.budget.rem = s.budget.rem ∨
    (s.budget.budgetOn = true ∧ s.budget.latch = true ∧ t.budget.latch = false ∧
      t.budget.rem.toInt = s.budget.rem.toInt - Int.sign s.budget.rem.toInt ∧ (t.budget.rem = 0 → t.budget.done = true))

/-! ## Commands (46_commands.md) -/

/-- NOP (R206) does nothing, and a cycle that presents one is, but for the pin itself, a cycle that presents nothing. -/
def Obligations.NopIsNoCommand : Prop :=
  (∀ s : State, exec .nop s = .next s) ∧
  ∀ (s : State) (p : Pins) (ps : List Pins), decodeWord p.cmd = .nop →
    ∃ t, step (withScript s ({ p with cmdValid := true } :: ps)) = .next t ∧
      step (withScript s ({ p with cmdValid := false } :: ps)) =
        .next { t with env := { t.env with pins := { p with cmdValid := false } } }

/-- HOME (R207). -/
def Obligations.HomeResult : Prop :=
  ∀ s : State,
    exec .home s = .next { s with
      align := { alignOff := s.align.alignOff, homed := false, homing := true, homeFail := false, settleCnt := s.cfg.settle }
      sensor := { s.sensor with rotorPrev := 7 }
      driveState := 0
      out := { outLegs := s.out.outLegs &&& 0x12, outDuty := s.out.outDuty, pendPat := 0x12, pendDuty := s.cfg.homeDuty,
               onPend := true } }

/-- START (R210, R212) completes for every state: the session is loaded whole, with the factor at 1.0; a homed machine commutates from
the sample of the cycle, or sets `ERR_INVALID` where that is Invalid. The kick is the build parameter `KICK_ON_START = true`
(notes/assumptions/6.md). -/
def Obligations.StartResult : Prop :=
  ∀ (rot vel : NumWord) (s : State),
    let n : Int := Int.tdiv rot.toInt 65536
    let loaded : State := { s with
      dir := if vel.toInt < 0 then .reverse else .forward
      pid := { targetMag := wordOf (satInt vel.toInt.natAbs), duty := s.cfg.dutyInit, integ := 0, errPrev := 0, tPrev := s.now }
      est := { s.est with velPending := false, pidCnt := 0 }
      budget := { rem := wordOf n, targetCnt := wordOf n, latch := false,
                  win := BitVec.ofNat 16 (min s.cfg.decelWin.toNat n.natAbs), budgetOn := decide (n ≠ 0), done := false,
                  prof := 0x00010000 }
      sensor := { s.sensor with rotorPrev := 7 } }
    (s.align.homed = false → exec (.start rot vel) s = .next loaded) ∧
    (s.align.homed = true → s.env.pins.hall = 0 ∨ s.env.pins.hall = 7 →
      exec (.start rot vel) s = .next { loaded with flags := s.flags ||| 0b0001 }) ∧
    (s.align.homed = true → 1 ≤ s.env.pins.hall.toNat → s.env.pins.hall.toNat ≤ 6 →
      ∃ t, exec (.commutate (decodeSample s.env.pins.hall).state) loaded = .next t ∧ exec (.start rot vel) s = .next t)

/-- R211: START's count is the integer part of the requested one, rounded toward zero, and lies between -32768 and 32767. -/
def Obligations.RotationCountIsTruncated : Prop :=
  ∀ (rot vel : NumWord) (s : State), ∃ t, exec (.start rot vel) s = .next t ∧ t.budget.rem = t.budget.targetCnt ∧
    -32768 ≤ t.budget.targetCnt.toInt ∧ t.budget.targetCnt.toInt ≤ 32767 ∧
    (0 ≤ rot.toInt → t.budget.targetCnt.toInt * 65536 ≤ rot.toInt ∧ rot.toInt < (t.budget.targetCnt.toInt + 1) * 65536) ∧
    (rot.toInt < 0 → rot.toInt ≤ t.budget.targetCnt.toInt * 65536 ∧ (t.budget.targetCnt.toInt - 1) * 65536 < rot.toInt)

/-- WRCFG (R213, R46, R216): each register takes the normalised value and nothing else changes; a reserved index, 9 to 15, only sets
`ERR_CMD`. -/
def Obligations.WrcfgResult : Prop :=
  ∀ (v : Word) (s : State),
    exec (.wrcfg (.reg .kp) v) s = .next { s with cfg := { s.cfg with kp := v } } ∧
    exec (.wrcfg (.reg .ki) v) s = .next { s with cfg := { s.cfg with ki := v } } ∧
    exec (.wrcfg (.reg .kd) v) s = .next { s with cfg := { s.cfg with kd := v } } ∧
    exec (.wrcfg (.reg .iMax) v) s = .next { s with cfg := { s.cfg with iMax := wordOf (satInt v.toInt.natAbs) } } ∧
    exec (.wrcfg (.reg .leadMag) v) s = .next { s with cfg := { s.cfg with leadMag := BitVec.ofNat 3 (v.toNat % 8) } } ∧
    exec (.wrcfg (.reg .decelWin) v) s = .next { s with cfg := { s.cfg with decelWin := BitVec.ofNat 16 (v.toNat % 65536) } } ∧
    exec (.wrcfg (.reg .settle) v) s = .next { s with cfg := { s.cfg with settle := v } } ∧
    exec (.wrcfg (.reg .dutyInit) v) s = .next { s with cfg := { s.cfg with dutyInit := wordOf (unitInt v.toInt) } } ∧
    exec (.wrcfg (.reg .homeDuty) v) s = .next { s with cfg := { s.cfg with homeDuty := wordOf (unitInt v.toInt) } } ∧
    ∀ code : BitVec 4, 9 ≤ code.toNat → exec (.wrcfg (.reserved code) v) s = .next { s with flags := s.flags ||| 0b1000 }

/-- CLRF (R218): a mask bit that is 1 clears the flag of its number, every other flag and everything else stays. -/
def Obligations.ClrfResult : Prop :=
  ∀ (m : BitVec 4) (s : State),
    ∃ f : BitVec 4, exec (.clrf m) s = .next { s with flags := f } ∧
      ∀ j : Nat, j < 4 → f.getLsbD j = (s.flags.getLsbD j && !m.getLsbD j)

/-- R220: the three reserved opcodes only set `ERR_CMD`. -/
def Obligations.ReservedOpcodesOnlySetErrCmd : Prop :=
  ∀ s : State,
    exec .rsv5 s = .next { s with flags := s.flags ||| 0b1000 } ∧
    exec .rsv6 s = .next { s with flags := s.flags ||| 0b1000 } ∧
    exec .rsv7 s = .next { s with flags := s.flags ||| 0b1000 }

/-- CMD (R205) completes for every command word and state, and does what the word's row does. -/
def Obligations.CmdRunsTheSelectedRow : Prop :=
  ∀ s : State, ∃ t, exec (decodeWord s.env.pins.cmd) s = .next t ∧ exec .cmd s = .next t

/-! ## The register map and the configuration (20_memory.md) -/

/-- What each of the 32 entries reads, in every state (R60, R62, R89): the registers whole or zero-extended, the reserved entries 0, the
packed entries STATUS and ROTOR bit by bit and field by field, and what those two read after reset. -/
def Obligations.RegisterMapEntriesReadTheirElements : Prop :=
  readEntry State.reset 16 = 0 ∧ readEntry State.reset 18 = 0x707 ∧
  ∀ s : State,
    (readEntry s 0 = s.cfg.kp ∧ readEntry s 1 = s.cfg.ki ∧ readEntry s 2 = s.cfg.kd ∧ readEntry s 3 = s.cfg.iMax ∧
      (readEntry s 4).toNat = s.cfg.leadMag.toNat ∧ (readEntry s 5).toNat = s.cfg.decelWin.toNat ∧
      readEntry s 6 = s.cfg.settle ∧ readEntry s 7 = s.cfg.dutyInit ∧ readEntry s 8 = s.cfg.homeDuty) ∧
    (∀ i : BitVec 5, 9 ≤ i.toNat → i.toNat ≤ 15 → readEntry s i = 0) ∧
    (∀ j : Nat, (readEntry s 16).getLsbD j =
      [s.align.homed, s.align.homing, s.align.homeFail, decide (s.dir = .reverse), s.budget.budgetOn, s.budget.latch,
       s.budget.done, s.est.velPending, s.est.tRefValid, s.out.onPend].getD j false) ∧
    (readEntry s 17).toNat = s.flags.toNat ∧
    (readEntry s 18).toNat = s.sensor.rotorPrev.toNat + 16 * s.align.alignOff.toNat + 256 * s.driveState.toNat +
      4096 * s.sensor.hallQ.toNat ∧
    (readEntry s 19).toNat = s.out.outLegs.toNat ∧ readEntry s 20 = s.out.outDuty ∧ readEntry s 21 = s.pid.duty ∧
    readEntry s 22 = s.budget.prof ∧ readEntry s 23 = s.est.velocity ∧ readEntry s 24 = s.pid.targetMag ∧
    readEntry s 25 = s.pid.integ ∧ readEntry s 26 = s.pid.errPrev ∧ readEntry s 27 = s.budget.rem ∧
    readEntry s 28 = s.budget.targetCnt ∧ (readEntry s 29).toNat = s.budget.win.toNat ∧ readEntry s 30 = s.now ∧
    readEntry s 31 = s.est.lastIv

/-- R63, R215: after a WRCFG to a register its entry reads the normalised value, and every other entry reads as before. -/
def Obligations.WrcfgReadsBack : Prop :=
  ∀ (r : CfgReg) (v : Word) (s : State), ∃ t, exec (.wrcfg (.reg r) v) s = .next t ∧
    readEntry t ((cfgRegCode r).setWidth 5) =
      (match r with
       | .iMax => wordOf (satInt v.toInt.natAbs)
       | .leadMag => BitVec.ofNat 32 (v.toNat % 8)
       | .decelWin => BitVec.ofNat 32 (v.toNat % 65536)
       | .dutyInit => wordOf (unitInt v.toInt)
       | .homeDuty => wordOf (unitInt v.toInt)
       | .kp => v
       | .ki => v
       | .kd => v
       | .settle => v) ∧
    ∀ i : BitVec 5, i ≠ (cfgRegCode r).setWidth 5 → readEntry t i = readEntry s i

/-- R46, R63: a cycle without reset changes the configuration only by an accepted WRCFG to one of its registers, and then writes no
other register. -/
def Obligations.ConfigurationChangesOnlyByWrcfg : Prop :=
  ∀ s t : State, step s = .next t → (nextPins s).rst = false → t.cfg ≠ s.cfg →
    ∃ r v, Accepts s (.wrcfg (.reg r) v) ∧ t.cfg = cfgWrite r v s.cfg

/-- The session constants of R27 and R28 (`target_mag`, `target_cnt`, `win`, `budget_on`) and `dir` (R23) change only at START or
reset, and `done` falls only then (R204). -/
def Obligations.SessionConstantsChangeOnlyAtStart : Prop :=
  ∀ s t : State, step s = .next t → (nextPins s).rst = false → (∀ rot vel, ¬Accepts s (.start rot vel)) →
    t.dir = s.dir ∧ t.pid.targetMag = s.pid.targetMag ∧ t.budget.targetCnt = s.budget.targetCnt ∧
    t.budget.win = s.budget.win ∧ t.budget.budgetOn = s.budget.budgetOn ∧ (s.budget.done = true → t.budget.done = true)

/-! ## Reset (70_reset_and_hazards.md) -/

/-- RESET (R260) leaves, from every state, what the 32 entries of the register map and the hidden elements hold after reset (R59). -/
def Obligations.ResetResult : Prop :=
  ∀ s : State, ∃ t, exec .reset s = .next t ∧
    (List.range 32).map (fun i => readEntry t (BitVec.ofNat 5 i)) =
      [0x8000, 0, 0, 0x7FFFFFFF, 2, 8, 1000000, 0x10000, 0x10000, 0, 0, 0, 0, 0, 0, 0,
       0, 0, 0x707, 0, 0, 0, 0x10000, 0, 0, 0, 0, 0, 0, 0, 0, 0] ∧
    t.align.settleCnt = 0 ∧ t.out.pendPat = 0 ∧ t.out.pendDuty = 0 ∧ t.est.tRef = 0 ∧ t.est.velTime = 0 ∧ t.pid.tPrev = 0 ∧
    t.est.pidCnt = 0 ∧ t.dir = .forward

/-- R260: with `rst = 1` the step does nothing but reset, whatever else is on the pins; nothing is said of the model's own two fields. -/
def Obligations.ResetWins : Prop :=
  ∀ s : State, (nextPins s).rst = true → ∃ e r, step s = .next { State.reset with env := e, result := r }

/-! ## The step (40_cycle_step.md) -/

/-- A step runs the decoded command: in a cycle that accepts a command word, the word's row runs, after the phases P1 to P4 and before
the tick. -/
def Obligations.StepRunsTheDecodedCommand : Prop :=
  ∀ (s : State) (i : Instr), Accepts s i →
    WellFormed i = true ∧ ∃ s4 s5, earlyPhases (present s) = .next s4 ∧ exec i s4 = .next s5 ∧
      step s = .next { s5 with now := s5.now + 1 }

/-- R110, R113: the phases of a cycle, in their order, each guarded by its condition on the state it finds; the command's guard is taken
before any phase. -/
def Obligations.CycleRunsItsPhasesInOrder : Prop :=
  ∀ s : State, (nextPins s).rst = false →
    ∃ s1 s2 s3 s4 s5 : State,
      (if s.out.onPend = true then exec .oncommit (present s) = .next s1 else s1 = present s) ∧
      (if s1.align.homing = true then exec .homing s1 = .next s2 else s2 = s1) ∧
      (if s2.env.pins.hall ≠ s2.sensor.hallQ then exec .edge s2 = .next s3 else s3 = s2) ∧
      (if s3.est.velPending = true then exec .pidstep s3 = .next s4 else s4 = s3) ∧
      (if (nextPins s).cmdValid = true ∧ s.align.homing = false then exec .cmd s4 = .next s5 else s5 = s4) ∧
      exec .tick s5 = step s ∧ s5.env = (present s).env

/-- R115, R232: the step is total: from every state, legal or not, and on every input, it answers a next state. -/
def Obligations.StepIsTotal : Prop := ∀ s : State, ∃ t, step s = .next t

/-- The reset state is legal (R58). -/
def Obligations.ResetStateIsLegal : Prop := Legal State.reset

/-- R58: every operation keeps every legal state legal, on every operand the spec gives it. -/
def Obligations.EveryOperationKeepsLegal : Prop :=
  ∀ (i : Instr) (s t : State), WellFormed i = true → Legal s → exec i s = .next t → Legal t

/-- R53 to R56, R58, R115: every step keeps every legal state legal. -/
def Obligations.StepKeepsLegal : Prop := ∀ s t : State, Legal s → step s = .next t → Legal t

/-- R52: the drive state 6 is never produced, and 7 only by reset. -/
def Obligations.DriveStateStaysCommanded : Prop :=
  ∀ s t : State, step s = .next t → (nextPins s).rst = false → t.driveState ≠ s.driveState → t.driveState.toNat ≤ 5

/-- R29, R242: nothing reads a flag: two machines that differ in their flags only make steps that differ in their flags only. -/
def Obligations.FlagsAreNeverRead : Prop :=
  ∀ (s : State) (f : BitVec 4), ∃ t f', step s = .next t ∧ step { s with flags := f } = .next { t with flags := f' }

/-- R29: a flag that is set stays set until reset or a CLRF whose mask selects it. -/
def Obligations.FlagsAreSticky : Prop :=
  ∀ (s t : State) (j : Nat), step s = .next t → s.flags.getLsbD j = true → t.flags.getLsbD j = false →
    (nextPins s).rst = true ∨ ∃ m : BitVec 4, m.getLsbD j = true ∧ Accepts s (.clrf m)

/-- The mode machine (R50), from every legal state: which mode a cycle can lead to, and on which event. -/
def Obligations.ModeTransitions : Prop :=
  ∀ s t : State, Legal s → step s = .next t →
    let p := nextPins s
    let home := Accepts s .home
    let start := ∃ rot vel, Accepts s (.start rot vel)
    (p.rst = true → modeOf t = .unhomed) ∧
    (p.rst = false →
      (modeOf s = .unhomed → (home → modeOf t = .homing) ∧ (¬home → modeOf t = .unhomed)) ∧
      (modeOf s = .homing →
        (s.align.settleCnt ≠ 0 → modeOf t = .homing) ∧
        (s.align.settleCnt = 0 → (decodeSample p.hall).valid = false → modeOf t = .unhomed) ∧
        (s.align.settleCnt = 0 → (decodeSample p.hall).valid = true → s.budget.done = true → modeOf t = .held) ∧
        (s.align.settleCnt = 0 → (decodeSample p.hall).valid = true → s.budget.done = false →
          modeOf t = .tracking ∨ (modeOf t = .held ∧ t.budget.rem = 0))) ∧
      (modeOf s = .tracking →
        (home → modeOf t = .homing) ∧ (start → modeOf t = .tracking) ∧
        (¬home → ¬start → modeOf t = .tracking ∨ (modeOf t = .held ∧ t.budget.rem = 0 ∧ s.budget.rem ≠ 0))) ∧
      (modeOf s = .held →
        (home → modeOf t = .homing) ∧ (start → modeOf t = .tracking) ∧ (¬home → ¬start → modeOf t = .held)))

/-- R144, R194: in Held mode, for as many cycles as no reset, HOME or START comes, the drive state, the tracked state, the alignment, the
budget and the measured velocity stand still, and the drivers hold the last command, whatever the sensor does. -/
def Obligations.HeldFreezesTheDrive : Prop :=
  ∀ (s : State) (ps rest : List Pins), modeOf s = .held → (∀ p ∈ ps, Quiet p) →
    ∃ t, runSteps ps.length (withScript s (ps ++ rest)) = .next t ∧ modeOf t = .held ∧
      t.driveState = s.driveState ∧ t.sensor.rotorPrev = s.sensor.rotorPrev ∧ t.align = s.align ∧ t.dir = s.dir ∧
      t.budget = s.budget ∧ t.est.velocity = s.est.velocity ∧ t.est.tRef = s.est.tRef ∧
      (ps ≠ [] → t.out = if s.out.onPend = true
        then { s.out with outLegs := s.out.pendPat, outDuty := s.out.pendDuty, onPend := false } else s.out)

/-- R113, R284: in a cycle that begins in Homing mode the command port has no effect of any kind. -/
def Obligations.CommandsDuringHomingAreLost : Prop :=
  ∀ (s : State) (p : Pins) (ps : List Pins) (valid : Bool) (word : CmdWord), s.align.homing = true →
    ∃ t, step (withScript s (p :: ps)) = .next t ∧
      step (withScript s ({ p with cmdValid := valid, cmd := word } :: ps)) =
        .next { t with env := { t.env with pins := { p with cmdValid := valid, cmd := word } } }

/-- R111, R160: `now` counts the cycles without reset, modulo `2^32`. -/
def Obligations.NowCountsCycles : Prop :=
  ∀ (s : State) (ps rest : List Pins), (∀ p ∈ ps, p.rst = false) →
    ∃ t, runSteps ps.length (withScript s (ps ++ rest)) = .next t ∧
      t.now.toNat = (s.now.toNat + ps.length) % 2 ^ 32 ∧ t.env.script = rest

/-- R111, R290: in Tracking mode a changed sample of cycle `n` shows on the pins as the AND of old and new pattern in cycle `n + 1` and as
the new pattern, at the duty of before cycle `n`'s PID, in cycle `n + 2`. -/
def Obligations.EdgeReachesThePinsInTwoCycles : Prop :=
  ∀ (s : State) (p q : Pins) (rest : List Pins), modeOf s = .tracking →
    p.rst = false → p.cmdValid = false → p.hall ≠ s.sensor.hallQ → (decodeSample p.hall).valid = true →
    (decodeSample p.hall).state ≠ s.sensor.rotorPrev → q.rst = false → q.cmdValid = false → q.hall = p.hall →
    ∃ (t u : State) (d : DriveState), step (withScript s (p :: q :: rest)) = .next t ∧ step t = .next u ∧
      (d.toNat : Int) = (((decodeSample p.hall).state.toNat : Int) - s.align.alignOff.toNat + leadInt s + 6) % 6 ∧
      drvOn t = (if s.out.onPend = true then s.out.pendPat else s.out.outLegs) &&& driveTable d ∧
      drvOn u = driveTable d ∧
      u.out.outDuty = wordOf (unitInt (s.pid.duty.toInt * s.budget.prof.toInt / 65536))
end

