-- ==== Sys2Proof/Laws/Arith.lean ====
section
/-! SUPPORT. What the `Num` primitives of R13 give, in integers. -/
namespace Sys2Proof.Machine

@[simp] theorem numOne_eq : numOne = 65536 := by decide

theorem satInt_range (x : Int) : -2147483648 ≤ satInt x ∧ satInt x ≤ 2147483647 := by
  unfold satInt; omega

theorem satInt_of_range {x : Int} (h₁ : -2147483648 ≤ x) (h₂ : x ≤ 2147483647) : satInt x = x := by
  unfold satInt; omega

theorem unitInt_range (x : Int) : 0 ≤ unitInt x ∧ unitInt x ≤ 65536 := by
  unfold unitInt; omega

theorem unitInt_satInt (x : Int) : unitInt (satInt x) = unitInt x := by
  unfold unitInt satInt; omega

/-- A 32-bit word lies in the range of `Num`. -/
theorem word_range (a : NumWord) : -2147483648 ≤ a.toInt ∧ a.toInt ≤ 2147483647 := by
  have h₁ := a.le_toInt
  have h₂ := a.toInt_lt
  norm_num at h₁ h₂
  omega

theorem ofInt_toInt_of_range {x : Int} (h₁ : -2147483648 ≤ x) (h₂ : x ≤ 2147483647) :
    (BitVec.ofInt 32 x).toInt = x := by
  rw [BitVec.toInt_ofInt]
  exact Int.bmod_eq_of_le (by norm_num; omega) (by norm_num; omega)

theorem wordOf_toInt {x : Int} (h₁ : -2147483648 ≤ x) (h₂ : x ≤ 2147483647) : (wordOf x).toInt = x :=
  ofInt_toInt_of_range h₁ h₂

@[simp] theorem wordOf_of_toInt (a : NumWord) : wordOf a.toInt = a := by
  simp [wordOf]

theorem saturate_eq (x : Int) : saturate x = wordOf (satInt x) := rfl

@[simp] theorem saturate_toInt (x : Int) : (saturate x).toInt = satInt x :=
  wordOf_toInt (satInt_range x).1 (satInt_range x).2

theorem fdiv_scale (x : Int) : Int.fdiv (x * 65536) 65536 = x := by
  rw [Int.fdiv_eq_ediv_of_nonneg _ (by norm_num)]; omega

theorem numAdd_eq (a b : NumWord) : numAdd a b = wordOf (satInt (a.toInt + b.toInt)) := by
  simp only [numAdd, fx, numOne_eq, fdiv_scale, saturate_eq]

theorem numSub_eq (a b : NumWord) : numSub a b = wordOf (satInt (a.toInt - b.toInt)) := by
  simp only [numSub, fx, numOne_eq, fdiv_scale, saturate_eq]

theorem numMul_eq (a b : NumWord) : numMul a b = wordOf (satInt (a.toInt * b.toInt / 65536)) := by
  simp only [numMul, fx, numOne_eq, saturate_eq]
  rw [Int.fdiv_eq_ediv_of_nonneg _ (by norm_num), Int.mul_ediv_mul_of_pos_left _ _ (by norm_num)]

theorem numAbs_eq (a : NumWord) : numAbs a = wordOf (satInt a.toInt.natAbs) := by
  simp only [numAbs, fx, numOne_eq, fdiv_scale, saturate_eq]

@[simp] theorem numAdd_toInt (a b : NumWord) : (numAdd a b).toInt = satInt (a.toInt + b.toInt) := by
  simp only [numAdd, fx, numOne_eq, fdiv_scale, saturate_toInt]

@[simp] theorem numSub_toInt (a b : NumWord) : (numSub a b).toInt = satInt (a.toInt - b.toInt) := by
  simp only [numSub, fx, numOne_eq, fdiv_scale, saturate_toInt]

@[simp] theorem numMul_toInt (a b : NumWord) : (numMul a b).toInt = satInt (a.toInt * b.toInt / 65536) := by
  rw [numMul_eq, wordOf_toInt (satInt_range _).1 (satInt_range _).2]

@[simp] theorem numAbs_toInt (a : NumWord) : (numAbs a).toInt = satInt a.toInt.natAbs := by
  rw [numAbs_eq, wordOf_toInt (satInt_range _).1 (satInt_range _).2]

/-- `nabs` is never negative, also of `NUM_MIN` (R13). -/
theorem numAbs_nonneg (a : NumWord) : 0 ≤ (numAbs a).toInt := by
  rw [numAbs_toInt]; unfold satInt; omega

/-- `div` answers for every divisor but 0 (R13). -/
theorem numDiv_of_ne_zero {a b : NumWord} (h : b ≠ 0) :
    numDiv a b = some (wordOf (satInt (Int.fdiv (a.toInt * 65536) b.toInt))) := by
  simp only [numDiv, if_neg h, fx, numOne_eq, saturate_eq]

theorem clamp01_eq (a : NumWord) : clamp01 a = wordOf (unitInt a.toInt) := by
  have := word_range a
  unfold clamp01
  rw [numOne_eq]
  split
  · rw [show unitInt a.toInt = 0 by unfold unitInt; omega]; rfl
  · split
    · rw [show unitInt a.toInt = 65536 by unfold unitInt; omega]; rfl
    · rw [show unitInt a.toInt = a.toInt by unfold unitInt; omega, wordOf_of_toInt]

@[simp] theorem clamp01_toInt (a : NumWord) : (clamp01 a).toInt = unitInt a.toInt := by
  have := unitInt_range a.toInt
  rw [clamp01_eq, wordOf_toInt (by omega) (by omega)]

/-- A clamped duty is in [0, 1], whatever was clamped (R54, R177). -/
theorem clamp01_inUnit (a : NumWord) : InUnit (clamp01 a) := by
  rw [InUnit, clamp01_toInt]; exact unitInt_range _

/-- The integral clamp for a bound that is not negative (R179). -/
theorem clampI_toInt (a : NumWord) {m : NumWord} (h : 0 ≤ m.toInt) :
    (clampI a m).toInt = max (-m.toInt) (min m.toInt a.toInt) := by
  have := word_range m
  rw [clampI, ofInt_toInt_of_range] <;> omega

/-- `recip` answers for every interval but 0 (R165, R167). -/
theorem recip_of_ne_zero {iv : Ticks} (h : iv ≠ 0) :
    recip iv = some (wordOf (satInt ((1000000 * 65536 / iv.toNat : Nat) : Int))) := by
  simp only [recip, if_neg h, fx, numOne_eq, saturate_eq]
  rw [Int.fdiv_eq_ediv_of_nonneg _ (by omega)]
  rfl

theorem ticks2num_toInt (dk : Ticks) : (ticks2num dk).toInt = ((dk.toNat * 65536 / 1000000 : Nat) : Int) := by
  have := dk.isLt
  have h : Int.fdiv ((dk.toNat : Int) * 65536) (Config.tickHz : Nat) = ((dk.toNat * 65536 / 1000000 : Nat) : Int) := by
    rw [Int.fdiv_eq_ediv_of_nonneg _ (by omega)]; rfl
  rw [ticks2num, fx, numOne_eq, h, saturate_toInt, satInt_of_range] <;> omega

/-- The interval in units of time is 0 exactly below 16 ticks (R178). -/
theorem ticks2num_eq_zero_iff (dk : Ticks) : ticks2num dk = 0 ↔ dk.toNat ≤ 15 := by
  rw [← BitVec.toInt_inj, ticks2num_toInt]
  simp only [BitVec.ofNat_eq_ofNat, BitVec.toInt_zero]
  omega

theorem ratio_of_ne_zero {p q : Nat} (h : q ≠ 0) : ratio p q = some (wordOf (satInt ((p * 65536 / q : Nat) : Int))) := by
  simp only [ratio, if_neg h, fx, numOne_eq, saturate_eq]
  rw [Int.fdiv_eq_ediv_of_nonneg _ (by omega)]
  push_cast
  rfl

end Sys2Proof.Machine
end

