-- ==== Sys2Proof/Laws/State.lean ====
section
/-! SUPPORT. What each named update of the state leaves in each field, by definition. A group of fields that an update leaves alone
has one lemma; a group it writes has one per field. -/
namespace Sys2Proof.Machine

/-! ### `raise` -/
@[simp] theorem raise_sensor (k : ErrorKind) (s : State) : (raise k s).sensor = s.sensor := rfl
@[simp] theorem raise_align (k : ErrorKind) (s : State) : (raise k s).align = s.align := rfl
@[simp] theorem raise_dir (k : ErrorKind) (s : State) : (raise k s).dir = s.dir := rfl
@[simp] theorem raise_driveState (k : ErrorKind) (s : State) : (raise k s).driveState = s.driveState := rfl
@[simp] theorem raise_out (k : ErrorKind) (s : State) : (raise k s).out = s.out := rfl
@[simp] theorem raise_now (k : ErrorKind) (s : State) : (raise k s).now = s.now := rfl
@[simp] theorem raise_est (k : ErrorKind) (s : State) : (raise k s).est = s.est := rfl
@[simp] theorem raise_pid (k : ErrorKind) (s : State) : (raise k s).pid = s.pid := rfl
@[simp] theorem raise_budget (k : ErrorKind) (s : State) : (raise k s).budget = s.budget := rfl
@[simp] theorem raise_flags (k : ErrorKind) (s : State) : (raise k s).flags = setFlag s.flags k := rfl
@[simp] theorem raise_cfg (k : ErrorKind) (s : State) : (raise k s).cfg = s.cfg := rfl
@[simp] theorem raise_env (k : ErrorKind) (s : State) : (raise k s).env = s.env := rfl
@[simp] theorem raise_result (k : ErrorKind) (s : State) : (raise k s).result = s.result := rfl

/-! ### `acknowledge` -/
@[simp] theorem acknowledge_sensor (m : BitVec 4) (s : State) : (acknowledge m s).sensor = s.sensor := rfl
@[simp] theorem acknowledge_align (m : BitVec 4) (s : State) : (acknowledge m s).align = s.align := rfl
@[simp] theorem acknowledge_dir (m : BitVec 4) (s : State) : (acknowledge m s).dir = s.dir := rfl
@[simp] theorem acknowledge_driveState (m : BitVec 4) (s : State) : (acknowledge m s).driveState = s.driveState := rfl
@[simp] theorem acknowledge_out (m : BitVec 4) (s : State) : (acknowledge m s).out = s.out := rfl
@[simp] theorem acknowledge_now (m : BitVec 4) (s : State) : (acknowledge m s).now = s.now := rfl
@[simp] theorem acknowledge_est (m : BitVec 4) (s : State) : (acknowledge m s).est = s.est := rfl
@[simp] theorem acknowledge_pid (m : BitVec 4) (s : State) : (acknowledge m s).pid = s.pid := rfl
@[simp] theorem acknowledge_budget (m : BitVec 4) (s : State) : (acknowledge m s).budget = s.budget := rfl
@[simp] theorem acknowledge_flags (m : BitVec 4) (s : State) : (acknowledge m s).flags = clearFlags s.flags m := rfl
@[simp] theorem acknowledge_cfg (m : BitVec 4) (s : State) : (acknowledge m s).cfg = s.cfg := rfl
@[simp] theorem acknowledge_env (m : BitVec 4) (s : State) : (acknowledge m s).env = s.env := rfl
@[simp] theorem acknowledge_result (m : BitVec 4) (s : State) : (acknowledge m s).result = s.result := rfl

/-! ### `driveLegs` -/
@[simp] theorem driveLegs_sensor (d : DriveState) (u : NumWord) (s : State) : (driveLegs d u s).sensor = s.sensor := rfl
@[simp] theorem driveLegs_align (d : DriveState) (u : NumWord) (s : State) : (driveLegs d u s).align = s.align := rfl
@[simp] theorem driveLegs_dir (d : DriveState) (u : NumWord) (s : State) : (driveLegs d u s).dir = s.dir := rfl
@[simp] theorem driveLegs_driveState (d : DriveState) (u : NumWord) (s : State) : (driveLegs d u s).driveState = d := rfl
@[simp] theorem driveLegs_out_outLegs (d : DriveState) (u : NumWord) (s : State) : (driveLegs d u s).out.outLegs = s.out.outLegs &&& driveTable d := rfl
@[simp] theorem driveLegs_out_outDuty (d : DriveState) (u : NumWord) (s : State) : (driveLegs d u s).out.outDuty = s.out.outDuty := rfl
@[simp] theorem driveLegs_out_pendPat (d : DriveState) (u : NumWord) (s : State) : (driveLegs d u s).out.pendPat = driveTable d := rfl
@[simp] theorem driveLegs_out_pendDuty (d : DriveState) (u : NumWord) (s : State) : (driveLegs d u s).out.pendDuty = u := rfl
@[simp] theorem driveLegs_out_onPend (d : DriveState) (u : NumWord) (s : State) : (driveLegs d u s).out.onPend = true := rfl
@[simp] theorem driveLegs_now (d : DriveState) (u : NumWord) (s : State) : (driveLegs d u s).now = s.now := rfl
@[simp] theorem driveLegs_est (d : DriveState) (u : NumWord) (s : State) : (driveLegs d u s).est = s.est := rfl
@[simp] theorem driveLegs_pid (d : DriveState) (u : NumWord) (s : State) : (driveLegs d u s).pid = s.pid := rfl
@[simp] theorem driveLegs_budget (d : DriveState) (u : NumWord) (s : State) : (driveLegs d u s).budget = s.budget := rfl
@[simp] theorem driveLegs_flags (d : DriveState) (u : NumWord) (s : State) : (driveLegs d u s).flags = s.flags := rfl
@[simp] theorem driveLegs_cfg (d : DriveState) (u : NumWord) (s : State) : (driveLegs d u s).cfg = s.cfg := rfl
@[simp] theorem driveLegs_env (d : DriveState) (u : NumWord) (s : State) : (driveLegs d u s).env = s.env := rfl
@[simp] theorem driveLegs_result (d : DriveState) (u : NumWord) (s : State) : (driveLegs d u s).result = s.result := rfl

/-! ### `turnOn` -/
@[simp] theorem turnOn_sensor (s : State) : (turnOn s).sensor = s.sensor := rfl
@[simp] theorem turnOn_align (s : State) : (turnOn s).align = s.align := rfl
@[simp] theorem turnOn_dir (s : State) : (turnOn s).dir = s.dir := rfl
@[simp] theorem turnOn_driveState (s : State) : (turnOn s).driveState = s.driveState := rfl
@[simp] theorem turnOn_out_outLegs (s : State) : (turnOn s).out.outLegs = s.out.pendPat := rfl
@[simp] theorem turnOn_out_outDuty (s : State) : (turnOn s).out.outDuty = s.out.pendDuty := rfl
@[simp] theorem turnOn_out_pendPat (s : State) : (turnOn s).out.pendPat = s.out.pendPat := rfl
@[simp] theorem turnOn_out_pendDuty (s : State) : (turnOn s).out.pendDuty = s.out.pendDuty := rfl
@[simp] theorem turnOn_out_onPend (s : State) : (turnOn s).out.onPend = false := rfl
@[simp] theorem turnOn_now (s : State) : (turnOn s).now = s.now := rfl
@[simp] theorem turnOn_est (s : State) : (turnOn s).est = s.est := rfl
@[simp] theorem turnOn_pid (s : State) : (turnOn s).pid = s.pid := rfl
@[simp] theorem turnOn_budget (s : State) : (turnOn s).budget = s.budget := rfl
@[simp] theorem turnOn_flags (s : State) : (turnOn s).flags = s.flags := rfl
@[simp] theorem turnOn_cfg (s : State) : (turnOn s).cfg = s.cfg := rfl
@[simp] theorem turnOn_env (s : State) : (turnOn s).env = s.env := rfl
@[simp] theorem turnOn_result (s : State) : (turnOn s).result = s.result := rfl

/-! ### `commutateTo` -/
@[simp] theorem commutateTo_sensor_hallQ (st : RotorState) (s : State) : (commutateTo st s).sensor.hallQ = s.sensor.hallQ := (rfl)
@[simp] theorem commutateTo_sensor_rotorPrev (st : RotorState) (s : State) : (commutateTo st s).sensor.rotorPrev = st := (rfl)
@[simp] theorem commutateTo_align (st : RotorState) (s : State) : (commutateTo st s).align = s.align := (rfl)
@[simp] theorem commutateTo_dir (st : RotorState) (s : State) : (commutateTo st s).dir = s.dir := (rfl)
@[simp] theorem commutateTo_driveState (st : RotorState) (s : State) : (commutateTo st s).driveState = commandedState s st := (rfl)
@[simp] theorem commutateTo_out_outLegs (st : RotorState) (s : State) : (commutateTo st s).out.outLegs = s.out.outLegs &&& driveTable (commandedState s st) := (rfl)
@[simp] theorem commutateTo_out_outDuty (st : RotorState) (s : State) : (commutateTo st s).out.outDuty = s.out.outDuty := (rfl)
@[simp] theorem commutateTo_out_pendPat (st : RotorState) (s : State) : (commutateTo st s).out.pendPat = driveTable (commandedState s st) := (rfl)
@[simp] theorem commutateTo_out_pendDuty (st : RotorState) (s : State) : (commutateTo st s).out.pendDuty = dutyEff s := (rfl)
@[simp] theorem commutateTo_out_onPend (st : RotorState) (s : State) : (commutateTo st s).out.onPend = true := (rfl)
@[simp] theorem commutateTo_now (st : RotorState) (s : State) : (commutateTo st s).now = s.now := (rfl)
@[simp] theorem commutateTo_est (st : RotorState) (s : State) : (commutateTo st s).est = s.est := (rfl)
@[simp] theorem commutateTo_pid (st : RotorState) (s : State) : (commutateTo st s).pid = s.pid := (rfl)
@[simp] theorem commutateTo_budget (st : RotorState) (s : State) : (commutateTo st s).budget = s.budget := (rfl)
@[simp] theorem commutateTo_flags (st : RotorState) (s : State) : (commutateTo st s).flags = s.flags := (rfl)
@[simp] theorem commutateTo_cfg (st : RotorState) (s : State) : (commutateTo st s).cfg = s.cfg := (rfl)
@[simp] theorem commutateTo_env (st : RotorState) (s : State) : (commutateTo st s).env = s.env := (rfl)
@[simp] theorem commutateTo_result (st : RotorState) (s : State) : (commutateTo st s).result = s.result := (rfl)

/-! ### `publish` -/
@[simp] theorem publish_sensor (l : BitVec 8) (iv : Ticks) (v : NumWord) (s : State) : (publish l iv v s).sensor = s.sensor := (rfl)
@[simp] theorem publish_align (l : BitVec 8) (iv : Ticks) (v : NumWord) (s : State) : (publish l iv v s).align = s.align := (rfl)
@[simp] theorem publish_dir (l : BitVec 8) (iv : Ticks) (v : NumWord) (s : State) : (publish l iv v s).dir = s.dir := (rfl)
@[simp] theorem publish_driveState (l : BitVec 8) (iv : Ticks) (v : NumWord) (s : State) : (publish l iv v s).driveState = s.driveState := (rfl)
@[simp] theorem publish_out (l : BitVec 8) (iv : Ticks) (v : NumWord) (s : State) : (publish l iv v s).out = s.out := (rfl)
@[simp] theorem publish_now (l : BitVec 8) (iv : Ticks) (v : NumWord) (s : State) : (publish l iv v s).now = s.now := (rfl)
@[simp] theorem publish_est_tRef (l : BitVec 8) (iv : Ticks) (v : NumWord) (s : State) : (publish l iv v s).est.tRef = s.now := (rfl)
@[simp] theorem publish_est_tRefValid (l : BitVec 8) (iv : Ticks) (v : NumWord) (s : State) : (publish l iv v s).est.tRefValid = s.est.tRefValid := (rfl)
@[simp] theorem publish_est_lastIv (l : BitVec 8) (iv : Ticks) (v : NumWord) (s : State) : (publish l iv v s).est.lastIv = iv := (rfl)
@[simp] theorem publish_est_velocity (l : BitVec 8) (iv : Ticks) (v : NumWord) (s : State) : (publish l iv v s).est.velocity = v := (rfl)
@[simp] theorem publish_est_velTime (l : BitVec 8) (iv : Ticks) (v : NumWord) (s : State) : (publish l iv v s).est.velTime = s.now := (rfl)
@[simp] theorem publish_est_velPending (l : BitVec 8) (iv : Ticks) (v : NumWord) (s : State) : (publish l iv v s).est.velPending = true := (rfl)
@[simp] theorem publish_est_pidCnt (l : BitVec 8) (iv : Ticks) (v : NumWord) (s : State) : (publish l iv v s).est.pidCnt = if s.est.velPending then s.est.pidCnt else l := (rfl)
@[simp] theorem publish_pid (l : BitVec 8) (iv : Ticks) (v : NumWord) (s : State) : (publish l iv v s).pid = s.pid := (rfl)
@[simp] theorem publish_budget (l : BitVec 8) (iv : Ticks) (v : NumWord) (s : State) : (publish l iv v s).budget = s.budget := (rfl)
@[simp] theorem publish_flags (l : BitVec 8) (iv : Ticks) (v : NumWord) (s : State) : (publish l iv v s).flags = s.flags := (rfl)
@[simp] theorem publish_cfg (l : BitVec 8) (iv : Ticks) (v : NumWord) (s : State) : (publish l iv v s).cfg = s.cfg := (rfl)
@[simp] theorem publish_env (l : BitVec 8) (iv : Ticks) (v : NumWord) (s : State) : (publish l iv v s).env = s.env := (rfl)
@[simp] theorem publish_result (l : BitVec 8) (iv : Ticks) (v : NumWord) (s : State) : (publish l iv v s).result = s.result := (rfl)

/-! ### `pidCommit` -/
@[simp] theorem pidCommit_sensor (e integ deriv : NumWord) (s : State) : (pidCommit e integ deriv s).sensor = s.sensor := (rfl)
@[simp] theorem pidCommit_align (e integ deriv : NumWord) (s : State) : (pidCommit e integ deriv s).align = s.align := (rfl)
@[simp] theorem pidCommit_dir (e integ deriv : NumWord) (s : State) : (pidCommit e integ deriv s).dir = s.dir := (rfl)
@[simp] theorem pidCommit_driveState (e integ deriv : NumWord) (s : State) : (pidCommit e integ deriv s).driveState = s.driveState := (rfl)
@[simp] theorem pidCommit_out (e integ deriv : NumWord) (s : State) : (pidCommit e integ deriv s).out = s.out := (rfl)
@[simp] theorem pidCommit_now (e integ deriv : NumWord) (s : State) : (pidCommit e integ deriv s).now = s.now := (rfl)
@[simp] theorem pidCommit_est (e integ deriv : NumWord) (s : State) : (pidCommit e integ deriv s).est = s.est := (rfl)
@[simp] theorem pidCommit_pid_targetMag (e integ deriv : NumWord) (s : State) : (pidCommit e integ deriv s).pid.targetMag = s.pid.targetMag := (rfl)
@[simp] theorem pidCommit_pid_duty (e integ deriv : NumWord) (s : State) : (pidCommit e integ deriv s).pid.duty = clamp01 (numAdd s.pid.duty (pidOutput s.cfg e integ deriv)) := (rfl)
@[simp] theorem pidCommit_pid_integ (e integ deriv : NumWord) (s : State) : (pidCommit e integ deriv s).pid.integ = integ := (rfl)
@[simp] theorem pidCommit_pid_errPrev (e integ deriv : NumWord) (s : State) : (pidCommit e integ deriv s).pid.errPrev = e := (rfl)
@[simp] theorem pidCommit_pid_tPrev (e integ deriv : NumWord) (s : State) : (pidCommit e integ deriv s).pid.tPrev = s.est.velTime := (rfl)
@[simp] theorem pidCommit_budget (e integ deriv : NumWord) (s : State) : (pidCommit e integ deriv s).budget = s.budget := (rfl)
@[simp] theorem pidCommit_flags (e integ deriv : NumWord) (s : State) : (pidCommit e integ deriv s).flags = s.flags := (rfl)
@[simp] theorem pidCommit_cfg (e integ deriv : NumWord) (s : State) : (pidCommit e integ deriv s).cfg = s.cfg := (rfl)
@[simp] theorem pidCommit_env (e integ deriv : NumWord) (s : State) : (pidCommit e integ deriv s).env = s.env := (rfl)
@[simp] theorem pidCommit_result (e integ deriv : NumWord) (s : State) : (pidCommit e integ deriv s).result = s.result := (rfl)

/-! ### `loadSession` -/
@[simp] theorem loadSession_sensor_hallQ (rot vel : NumWord) (s : State) : (loadSession rot vel s).sensor.hallQ = s.sensor.hallQ := (rfl)
@[simp] theorem loadSession_sensor_rotorPrev (rot vel : NumWord) (s : State) : (loadSession rot vel s).sensor.rotorPrev = 7 := (rfl)
@[simp] theorem loadSession_align (rot vel : NumWord) (s : State) : (loadSession rot vel s).align = s.align := (rfl)
@[simp] theorem loadSession_dir (rot vel : NumWord) (s : State) : (loadSession rot vel s).dir = if vel.toInt < 0 then .reverse else .forward := (rfl)
@[simp] theorem loadSession_driveState (rot vel : NumWord) (s : State) : (loadSession rot vel s).driveState = s.driveState := (rfl)
@[simp] theorem loadSession_out (rot vel : NumWord) (s : State) : (loadSession rot vel s).out = s.out := (rfl)
@[simp] theorem loadSession_now (rot vel : NumWord) (s : State) : (loadSession rot vel s).now = s.now := (rfl)
@[simp] theorem loadSession_est_tRef (rot vel : NumWord) (s : State) : (loadSession rot vel s).est.tRef = s.est.tRef := (rfl)
@[simp] theorem loadSession_est_tRefValid (rot vel : NumWord) (s : State) : (loadSession rot vel s).est.tRefValid = s.est.tRefValid := (rfl)
@[simp] theorem loadSession_est_lastIv (rot vel : NumWord) (s : State) : (loadSession rot vel s).est.lastIv = s.est.lastIv := (rfl)
@[simp] theorem loadSession_est_velocity (rot vel : NumWord) (s : State) : (loadSession rot vel s).est.velocity = s.est.velocity := (rfl)
@[simp] theorem loadSession_est_velTime (rot vel : NumWord) (s : State) : (loadSession rot vel s).est.velTime = s.est.velTime := (rfl)
@[simp] theorem loadSession_est_velPending (rot vel : NumWord) (s : State) : (loadSession rot vel s).est.velPending = false := (rfl)
@[simp] theorem loadSession_est_pidCnt (rot vel : NumWord) (s : State) : (loadSession rot vel s).est.pidCnt = 0 := (rfl)
@[simp] theorem loadSession_pid_targetMag (rot vel : NumWord) (s : State) : (loadSession rot vel s).pid.targetMag = numAbs vel := (rfl)
@[simp] theorem loadSession_pid_duty (rot vel : NumWord) (s : State) : (loadSession rot vel s).pid.duty = s.cfg.dutyInit := (rfl)
@[simp] theorem loadSession_pid_integ (rot vel : NumWord) (s : State) : (loadSession rot vel s).pid.integ = 0 := (rfl)
@[simp] theorem loadSession_pid_errPrev (rot vel : NumWord) (s : State) : (loadSession rot vel s).pid.errPrev = 0 := (rfl)
@[simp] theorem loadSession_pid_tPrev (rot vel : NumWord) (s : State) : (loadSession rot vel s).pid.tPrev = s.now := (rfl)
@[simp] theorem loadSession_budget_rem (rot vel : NumWord) (s : State) : (loadSession rot vel s).budget.rem = rotationCount rot := (rfl)
@[simp] theorem loadSession_budget_targetCnt (rot vel : NumWord) (s : State) : (loadSession rot vel s).budget.targetCnt = rotationCount rot := (rfl)
@[simp] theorem loadSession_budget_latch (rot vel : NumWord) (s : State) : (loadSession rot vel s).budget.latch = false := (rfl)
@[simp] theorem loadSession_budget_win (rot vel : NumWord) (s : State) : (loadSession rot vel s).budget.win = sessionWindow s.cfg.decelWin (rotationCount rot) := (rfl)
@[simp] theorem loadSession_budget_budgetOn (rot vel : NumWord) (s : State) : (loadSession rot vel s).budget.budgetOn = decide (rotationCount rot ≠ 0) := (rfl)
@[simp] theorem loadSession_budget_done (rot vel : NumWord) (s : State) : (loadSession rot vel s).budget.done = false := (rfl)
@[simp] theorem loadSession_budget_prof (rot vel : NumWord) (s : State) : (loadSession rot vel s).budget.prof = s.budget.prof := (rfl)
@[simp] theorem loadSession_flags (rot vel : NumWord) (s : State) : (loadSession rot vel s).flags = s.flags := (rfl)
@[simp] theorem loadSession_cfg (rot vel : NumWord) (s : State) : (loadSession rot vel s).cfg = s.cfg := (rfl)
@[simp] theorem loadSession_env (rot vel : NumWord) (s : State) : (loadSession rot vel s).env = s.env := (rfl)
@[simp] theorem loadSession_result (rot vel : NumWord) (s : State) : (loadSession rot vel s).result = s.result := (rfl)

/-! ### `present` -/
@[simp] theorem withScript_env_script (s : State) (ps : List Pins) : (withScript s ps).env.script = ps := rfl
@[simp] theorem withScript_sensor (s : State) (ps : List Pins) : (withScript s ps).sensor = s.sensor := rfl
@[simp] theorem present_sensor (s : State) : (present s).sensor = s.sensor := by unfold present; split <;> rfl
@[simp] theorem withScript_align (s : State) (ps : List Pins) : (withScript s ps).align = s.align := rfl
@[simp] theorem present_align (s : State) : (present s).align = s.align := by unfold present; split <;> rfl
@[simp] theorem withScript_dir (s : State) (ps : List Pins) : (withScript s ps).dir = s.dir := rfl
@[simp] theorem present_dir (s : State) : (present s).dir = s.dir := by unfold present; split <;> rfl
@[simp] theorem withScript_driveState (s : State) (ps : List Pins) : (withScript s ps).driveState = s.driveState := rfl
@[simp] theorem present_driveState (s : State) : (present s).driveState = s.driveState := by unfold present; split <;> rfl
@[simp] theorem withScript_out (s : State) (ps : List Pins) : (withScript s ps).out = s.out := rfl
@[simp] theorem present_out (s : State) : (present s).out = s.out := by unfold present; split <;> rfl
@[simp] theorem withScript_now (s : State) (ps : List Pins) : (withScript s ps).now = s.now := rfl
@[simp] theorem present_now (s : State) : (present s).now = s.now := by unfold present; split <;> rfl
@[simp] theorem withScript_est (s : State) (ps : List Pins) : (withScript s ps).est = s.est := rfl
@[simp] theorem present_est (s : State) : (present s).est = s.est := by unfold present; split <;> rfl
@[simp] theorem withScript_pid (s : State) (ps : List Pins) : (withScript s ps).pid = s.pid := rfl
@[simp] theorem present_pid (s : State) : (present s).pid = s.pid := by unfold present; split <;> rfl
@[simp] theorem withScript_budget (s : State) (ps : List Pins) : (withScript s ps).budget = s.budget := rfl
@[simp] theorem present_budget (s : State) : (present s).budget = s.budget := by unfold present; split <;> rfl
@[simp] theorem withScript_flags (s : State) (ps : List Pins) : (withScript s ps).flags = s.flags := rfl
@[simp] theorem present_flags (s : State) : (present s).flags = s.flags := by unfold present; split <;> rfl
@[simp] theorem withScript_cfg (s : State) (ps : List Pins) : (withScript s ps).cfg = s.cfg := rfl
@[simp] theorem present_cfg (s : State) : (present s).cfg = s.cfg := by unfold present; split <;> rfl
@[simp] theorem withScript_result (s : State) (ps : List Pins) : (withScript s ps).result = s.result := rfl
@[simp] theorem present_result (s : State) : (present s).result = s.result := by unfold present; split <;> rfl

@[simp] theorem present_env_pins (s : State) : (present s).env.pins = nextPins s := rfl

@[simp] theorem nextPins_withScript_cons (s : State) (p : Pins) (ps : List Pins) : nextPins (withScript s (p :: ps)) = p := rfl

/-- Placed stimulus is consumed one cycle at a time. -/
theorem present_withScript_cons (s : State) (p : Pins) (ps : List Pins) :
    present (withScript s (p :: ps)) = { s with env := { s.env with pins := p, script := ps } } := rfl

/-- Where no stimulus is placed, the inputs are free. -/
theorem present_of_nil (s : State) (h : s.env.script = []) :
    present s = { s with env := { s.env with pins := Config.freePins s.env.draws, draws := s.env.draws + 1 } } := by
  unfold present; rw [h]

end Sys2Proof.Machine
end

