-- ==== Sys2Proof/Laws/Ops.lean ====
section
/-! SUPPORT. For each shared operation, once, everything it can do: cite these in place of unfolding it. -/
namespace Sys2Proof.Machine

/-! ### Following one operation by another -/

@[simp] theorem andThen_next (s : State) (f : State → Result) : andThen (.next s) f = f s := rfl

@[simp] theorem withQuotient_some (v : NumWord) (f : NumWord → Result) : withQuotient (some v) f = f v := rfl

/-- A sequence answers a next state exactly where both its parts do. -/
theorem andThen_eq_next {r : Result} {f : State → Result} {t : State} :
    andThen r f = .next t ↔ ∃ s, r = .next s ∧ f s = .next t := by
  cases r <;> simp [andThen]

theorem runSteps_succ (k : Nat) (s : State) : runSteps (k + 1) s = andThen (step s) (runSteps k) := rfl

/-! ### Tables and values -/

/-- A sample decodes to a rotor state, or is Invalid (R83, R121). -/
theorem decodeSample_cases (raw : Sample) :
    ((decodeSample raw).valid = true ∧ (decodeSample raw).state.toNat ≤ 5 ∧ 1 ≤ raw.toNat ∧ raw.toNat ≤ 6) ∨
    ((decodeSample raw).valid = false ∧ (decodeSample raw).state = 7 ∧ (raw = 0 ∨ raw = 7)) := by
  revert raw; decide

theorem decodeSample_valid_iff (raw : Sample) : (decodeSample raw).valid = true ↔ 1 ≤ raw.toNat ∧ raw.toNat ≤ 6 := by
  revert raw; decide

theorem decodeSample_valid_eq_false_iff (raw : Sample) : (decodeSample raw).valid = false ↔ raw = 0 ∨ raw = 7 := by
  revert raw; decide

theorem driveTable_mem (d : DriveState) : driveTable d ∈ driveTableList := by
  revert d; decide

theorem driveTable_noShootThrough (d : DriveState) : NoShootThrough (driveTable d) := by
  revert d; decide

/-- Turning drivers off never shorts a leg (R129). -/
theorem noShootThrough_and {p q : Pattern} (h : NoShootThrough q) : NoShootThrough (p &&& q) := by
  simp only [NoShootThrough, BitVec.getLsbD_and, Bool.and_eq_true] at *
  tauto

/-- A floored remainder by 6 as a three-bit state. -/
theorem ofInt_emod_six (x : Int) : ((BitVec.ofInt 3 (emod x 6)).toNat : Int) = x % 6 := by
  have h : emod x 6 = x % 6 := rfl
  rw [h, BitVec.toNat_ofInt]
  omega

theorem alignedState_toNat (off st : RotorState) :
    ((alignedState off st).toNat : Int) = ((st.toNat : Int) - off.toNat + 6) % 6 := ofInt_emod_six _

theorem commandedState_toNat (s : State) (st : RotorState) :
    ((commandedState s st).toNat : Int) = ((st.toNat : Int) - s.align.alignOff.toNat + leadInt s + 6) % 6 := by
  rw [commandedState, ofInt_emod_six, leadInt]
  cases s.dir <;> simp [lead]

theorem commandedState_le (s : State) (st : RotorState) : (commandedState s st).toNat ≤ 5 := by
  have := commandedState_toNat s st; omega

theorem dutyEff_toInt (s : State) : (dutyEff s).toInt = unitInt (s.pid.duty.toInt * s.budget.prof.toInt / 65536) := by
  rw [dutyEff, clamp01_toInt, numMul_toInt, unitInt_satInt]

theorem dutyEff_inUnit (s : State) : InUnit (dutyEff s) := clamp01_inUnit _

/-! ### The budget -/

/-- The profile factor always exists, and is in [0, 1] (R196, R198). -/
theorem profileOf_some (b : Budget) : ∃ p, profileOf b = some p ∧ InUnit p := by
  unfold profileOf
  dsimp only
  split
  · exact ⟨_, rfl, by decide⟩
  · rename_i h
    have hw : b.win.toNat ≠ 0 := fun h0 => h (.inr (.inl (BitVec.eq_of_toNat_eq (by simpa using h0))))
    rw [ratio_of_ne_zero hw]
    exact ⟨_, rfl, clamp01_inUnit _⟩

/-- Outside the window, or without one, the factor is 1.0 (R196). -/
theorem profileOf_one {b : Budget} (h : b.budgetOn = false ∨ b.win = 0 ∨ b.win.toNat ≤ b.rem.toInt.natAbs) :
    profileOf b = some 0x00010000 := by
  simp only [profileOf, if_pos h]; decide

/-- A counting step goes one toward zero (R193). -/
theorem countStep_toInt (rem : Count) : (countStep rem).toInt = rem.toInt - Int.sign rem.toInt := by
  have h := word_range rem
  unfold countStep
  split
  · rename_i hp
    rw [Int.sign_eq_one_of_pos hp, BitVec.toInt_sub]
    exact Int.bmod_eq_of_le (by simp; omega) (by simp; omega)
  · split
    · rename_i hn
      rw [Int.sign_eq_neg_one_of_neg hn, BitVec.toInt_add]
      exact Int.bmod_eq_of_le (by simp; omega) (by simp; omega)
    · rw [show rem.toInt = 0 by omega]; rfl

/-- The budget after a counting step with the factor `p` (R191, R194). -/
def counted (b : Budget) (p : NumWord) : Budget :=
  { b with latch := false, rem := countStep b.rem, prof := p, done := if countStep b.rem = 0 then true else b.done }

/-- BUDGET writes the budget alone: nothing, the latch armed, or the latch consumed and the count moved (R191). -/
theorem execBudget_cases (a : RotorState) (s : State) : ∃ b, execBudget a s = .next { s with budget := b } ∧
    (b = s.budget ∨
     (s.budget.budgetOn = true ∧ s.budget.latch = false ∧ 3 ≤ a.toNat ∧ b = { s.budget with latch := true }) ∨
     (s.budget.budgetOn = true ∧ s.budget.latch = true ∧ a = 0 ∧ ∃ p, InUnit p ∧ b = counted s.budget p)) := by
  unfold execBudget
  split
  · exact ⟨s.budget, rfl, .inl rfl⟩
  · rename_i hon
    have hon : s.budget.budgetOn = true := by simpa using hon
    split
    · rename_i h
      exact ⟨_, rfl, .inr (.inl ⟨hon, h.2, h.1, rfl⟩)⟩
    · split
      · rename_i h
        obtain ⟨p, hp, hu⟩ := profileOf_some { s.budget with latch := false, rem := countStep s.budget.rem }
        refine ⟨counted s.budget p, ?_, .inr (.inr ⟨hon, h.2, h.1, p, hu, rfl⟩)⟩
        dsimp only
        rw [hp]; rfl
      · exact ⟨s.budget, rfl, .inl rfl⟩

/-! ### The estimator -/

/-- REFVISIT starts a measurement, raises DegenerateTimingSample for a zero or an unchanged interval, or publishes (R164). -/
theorem refVisitWith_cases (latency : BitVec 8) (s : State) : ∃ t, refVisitWith latency s = .next t ∧
    ((s.est.tRefValid = false ∧ t = { s with est := { s.est with tRef := s.now, tRefValid := true } }) ∨
     (s.est.tRefValid = true ∧ s.now - s.est.tRef = 0 ∧ t = raise .degenerateTimingSample s) ∨
     (s.est.tRefValid = true ∧ s.now - s.est.tRef ≠ 0 ∧ s.now - s.est.tRef = s.est.lastIv ∧
       t = raise .degenerateTimingSample { s with est := { s.est with tRef := s.now } }) ∨
     (s.est.tRefValid = true ∧ s.now - s.est.tRef ≠ 0 ∧ s.now - s.est.tRef ≠ s.est.lastIv ∧
       ∃ v, recip (s.now - s.est.tRef) = some v ∧ 0 ≤ v.toInt ∧ t = publish latency (s.now - s.est.tRef) v s)) := by
  unfold refVisitWith
  dsimp only
  split
  · exact ⟨_, rfl, .inl ⟨‹_›, rfl⟩⟩
  · rename_i hv
    have hv : s.est.tRefValid = true := by simpa using hv
    split
    · exact ⟨_, rfl, .inr (.inl ⟨hv, ‹_›, rfl⟩)⟩
    · rename_i h0
      split
      · exact ⟨_, rfl, .inr (.inr (.inl ⟨hv, h0, ‹_›, rfl⟩))⟩
      · refine ⟨publish latency (s.now - s.est.tRef)
          (wordOf (satInt ((1000000 * 65536 / (s.now - s.est.tRef).toNat : Nat) : Int))) s, ?_,
          .inr (.inr (.inr ⟨hv, h0, ‹_›, _, recip_of_ne_zero h0, ?_, rfl⟩))⟩
        · rw [recip_of_ne_zero h0]; rfl
        · generalize 1000000 * 65536 / (s.now - s.est.tRef).toNat = q
          rw [wordOf_toInt (satInt_range _).1 (satInt_range _).2]; unfold satInt; omega

/-- REFVISIT writes the estimator and the flags alone. -/
theorem execRefvisit_frame (s : State) : ∃ e f, execRefvisit s = .next { s with est := e, flags := f } := by
  obtain ⟨t, h, ⟨-, rfl⟩ | ⟨-, -, rfl⟩ | ⟨-, -, -, rfl⟩ | ⟨-, -, -, v, -, -, rfl⟩⟩ :=
    refVisitWith_cases Config.pidLatency s <;> exact ⟨_, _, h⟩

/-- BOOKKEEP is REFVISIT at aligned state 0, then BUDGET (R161). -/
theorem execBookkeep_cases (st : RotorState) (s : State) : ∃ t u, execBookkeep st s = .next u ∧
    (if alignedState s.align.alignOff st = 0 then execRefvisit s = .next t else t = s) ∧
    execBudget (alignedState s.align.alignOff st) t = .next u := by
  obtain ⟨e, f, hr⟩ := execRefvisit_frame s
  unfold execBookkeep
  dsimp only
  split
  · obtain ⟨b, hb, -⟩ := execBudget_cases (alignedState s.align.alignOff st) { s with est := e, flags := f }
    exact ⟨_, _, by rw [hr, andThen_next, hb], hr, hb⟩
  · obtain ⟨b, hb, -⟩ := execBudget_cases (alignedState s.align.alignOff st) s
    exact ⟨_, _, by rw [andThen_next, hb], rfl, hb⟩

/-- BOOKKEEP writes the estimator, the budget and the flags alone. -/
theorem execBookkeep_frame (st : RotorState) (s : State) :
    ∃ e b f, execBookkeep st s = .next { s with est := e, budget := b, flags := f } := by
  obtain ⟨t, u, h, ht, hu⟩ := execBookkeep_cases st s
  obtain ⟨e, f, hr⟩ := execRefvisit_frame s
  split at ht
  · obtain rfl : _ = t := by simpa using hr.symm.trans ht
    obtain ⟨b, hb, -⟩ := execBudget_cases (alignedState s.align.alignOff st) { s with est := e, flags := f }
    exact ⟨e, b, f, by rw [h, ← hu, hb]⟩
  · subst ht
    obtain ⟨b, hb, -⟩ := execBudget_cases (alignedState t.align.alignOff st) t
    exact ⟨t.est, b, t.flags, by rw [h, ← hu, hb]⟩

/-! ### The PID controller -/

/-- The error, the interval and the new integral of an evaluation (R176, R179). -/
def pidError (s : State) : NumWord := numSub s.pid.targetMag s.est.velocity
def pidInterval (s : State) : NumWord := ticks2num (s.est.velTime - s.pid.tPrev)
def pidIntegral (s : State) : NumWord := clampI (numAdd s.pid.integ (numMul (pidError s) (pidInterval s))) s.cfg.iMax

/-- PID commits an evaluation: with derivative 0 and DegenerateTimingSample for a zero interval, else with the quotient (R176). -/
theorem execPid_cases (s : State) :
    (pidInterval s = 0 ∧
      execPid s = .next (pidCommit (pidError s) (pidIntegral s) 0 (raise .degenerateTimingSample s))) ∨
    (pidInterval s ≠ 0 ∧ ∃ deriv, numDiv (numSub (pidError s) s.pid.errPrev) (pidInterval s) = some deriv ∧
      execPid s = .next (pidCommit (pidError s) (pidIntegral s) deriv s)) := by
  by_cases h : pidInterval s = 0
  · refine .inl ⟨h, ?_⟩
    simp only [pidInterval] at h
    simp only [execPid, h, if_true]
    simp only [pidIntegral, pidError, pidInterval, h]
  · refine .inr ⟨h, _, numDiv_of_ne_zero h, ?_⟩
    have hq := numDiv_of_ne_zero (a := numSub (pidError s) s.pid.errPrev) h
    simp only [pidError, pidInterval] at h hq
    simp only [execPid, if_neg h, hq, withQuotient_some]
    rfl

/-- PID writes the controller's state and the flags alone, and leaves the target alone. -/
theorem execPid_frame (s : State) : ∃ p f, execPid s = .next { s with pid := p, flags := f } ∧
    p.targetMag = s.pid.targetMag ∧ InUnit p.duty := by
  obtain ⟨-, h⟩ | ⟨-, d, -, h⟩ := execPid_cases s
  · exact ⟨_, _, h, rfl, clamp01_inUnit _⟩
  · exact ⟨_, _, h, rfl, clamp01_inUnit _⟩

/-- PIDSTEP writes the controller's state, the flags, and of the estimator the countdown and the pending bit (R175). -/
theorem execPidstep_cases (s : State) :
    (s.est.pidCnt ≠ 0 ∧ execPidstep s = .next { s with est := { s.est with pidCnt := s.est.pidCnt - 1 } }) ∨
    (s.est.pidCnt = 0 ∧ ∃ p f, execPid s = .next { s with pid := p, flags := f } ∧
      p.targetMag = s.pid.targetMag ∧ InUnit p.duty ∧
      execPidstep s = .next { s with pid := p, flags := f, est := { s.est with velPending := false } }) := by
  by_cases h : s.est.pidCnt = 0
  · obtain ⟨p, f, hp, ht, hd⟩ := execPid_frame s
    exact .inr ⟨h, p, f, hp, ht, hd, by simp only [execPidstep, if_pos h, hp, andThen_next]⟩
  · exact .inl ⟨h, by simp only [execPidstep, if_neg h]⟩

/-! ### Commutation and homing -/

/-- The state in which EDGE has taken the sample. -/
def tracked (s : State) : State := { s with sensor := { s.sensor with hallQ := s.env.pins.hall } }

/-- EDGE only tracks the sample, raises InvalidSensorReading, or commutates and keeps the books (R140). -/
theorem execEdge_cases (s : State) :
    ((s.align.homing = true ∨ s.align.homed = false) ∧ execEdge s = .next (tracked s)) ∨
    (s.align.homing = false ∧ s.align.homed = true ∧ (decodeSample s.env.pins.hall).valid = false ∧
      execEdge s = .next (raise .invalidSensorReading (tracked s))) ∨
    (s.align.homing = false ∧ s.align.homed = true ∧ (decodeSample s.env.pins.hall).valid = true ∧
      ((decodeSample s.env.pins.hall).state = s.sensor.rotorPrev ∨ s.budget.done = true) ∧
      execEdge s = .next (tracked s)) ∨
    (s.align.homing = false ∧ s.align.homed = true ∧ (decodeSample s.env.pins.hall).valid = true ∧
      (decodeSample s.env.pins.hall).state ≠ s.sensor.rotorPrev ∧ s.budget.done = false ∧
      execEdge s = execBookkeep (decodeSample s.env.pins.hall).state
        (commutateTo (decodeSample s.env.pins.hall).state (tracked s))) := by
  unfold execEdge
  dsimp only
  split
  · exact .inl ⟨‹_›, rfl⟩
  · rename_i h
    have h1 : s.align.homing = false := by simpa using (not_or.mp h).1
    have h2 : s.align.homed = true := by simpa using (not_or.mp h).2
    split
    · exact .inr (.inl ⟨h1, h2, ‹_›, rfl⟩)
    · rename_i hv
      have hv : (decodeSample s.env.pins.hall).valid = true := by simpa using hv
      split
      · exact .inr (.inr (.inl ⟨h1, h2, hv, .inl ‹_›, rfl⟩))
      · split
        · exact .inr (.inr (.inl ⟨h1, h2, hv, .inr ‹_›, rfl⟩))
        · rename_i hne hd
          exact .inr (.inr (.inr ⟨h1, h2, hv, hne, by simpa using hd, rfl⟩))

/-- HOMING waits, captures, or fails (R148). -/
theorem execHoming_cases (s : State) :
    (s.align.settleCnt ≠ 0 ∧
      execHoming s = .next { s with align := { s.align with settleCnt := s.align.settleCnt - 1 } }) ∨
    (s.align.settleCnt = 0 ∧ (decodeSample s.env.pins.hall).valid = true ∧
      execHoming s = .next { s with align :=
        { s.align with homing := false, alignOff := (decodeSample s.env.pins.hall).state, homed := true } }) ∨
    (s.align.settleCnt = 0 ∧ (decodeSample s.env.pins.hall).valid = false ∧
      execHoming s = .next (raise .homingFailed { s with align := { s.align with homing := false, homeFail := true } })) := by
  unfold execHoming
  dsimp only
  split
  · exact .inl ⟨‹_›, rfl⟩
  · rename_i h0
    have h0 : s.align.settleCnt = 0 := by simpa using h0
    split
    · exact .inr (.inl ⟨h0, ‹_›, rfl⟩)
    · rename_i hv
      exact .inr (.inr ⟨h0, by simpa using hv, rfl⟩)

/-! ### Commands -/

/-- The session of a START, with the factor of its first rotation (R210). -/
def sessionStarted (rot vel : NumWord) (s : State) : State :=
  { loadSession rot vel s with budget := { (loadSession rot vel s).budget with prof := 0x00010000 } }

/-- The factor of a START is 1.0: the window does not exceed the count (R197). -/
theorem profileOf_loadSession (rot vel : NumWord) (s : State) :
    profileOf (loadSession rot vel s).budget = some 0x00010000 := by
  apply profileOf_one
  refine .inr (.inr ?_)
  rw [loadSession_budget_win, loadSession_budget_rem, sessionWindow, BitVec.toNat_ofNat]
  exact (Nat.mod_le _ _).trans (Nat.min_le_right _ _)

/-- START loads the session; a homed machine kicks, where the build has the kick (R210, R212). -/
theorem startWith_eq (kick : Bool) (rot vel : NumWord) (s : State) :
    startWith kick rot vel s = .next (if s.align.homed = true ∧ kick = true
      then kickFrom s.env.pins.hall (sessionStarted rot vel s) else sessionStarted rot vel s) := by
  simp only [startWith, profileOf_loadSession, withQuotient_some]
  split
  · rename_i h
    have h' : s.align.homed = true ∧ kick = true := h
    rw [if_pos h']; rfl
  · rename_i h
    have h' : ¬(s.align.homed = true ∧ kick = true) := h
    rw [if_neg h']; rfl

/-- The kick commutates from a valid sample and raises InvalidSensorReading for an Invalid one (R212). -/
theorem kickFrom_cases (hall : Sample) (s : State) :
    ((decodeSample hall).valid = true ∧ kickFrom hall s = commutateTo (decodeSample hall).state s) ∨
    ((decodeSample hall).valid = false ∧ kickFrom hall s = raise .invalidSensorReading s) := by
  cases h : (decodeSample hall).valid <;> simp [kickFrom, h]

/-- CMD is `exec` of the word's row (R205). -/
theorem execCmd_eq (s : State) : execCmd s = exec (decodeWord s.env.pins.cmd) s := by
  unfold execCmd decodeWord
  cases decodeCommand s.env.pins.cmd <;> rfl

/-- Every command completes (R115). -/
theorem execCmd_next (s : State) : ∃ t, execCmd s = .next t := by
  unfold execCmd
  cases decodeCommand s.env.pins.cmd with
  | nop => exact ⟨_, rfl⟩
  | home => exact ⟨_, rfl⟩
  | start rot vel => exact ⟨_, startWith_eq _ rot vel s⟩
  | wrcfg i v => cases i <;> exact ⟨_, rfl⟩
  | clrf m => exact ⟨_, rfl⟩
  | rsv5 => exact ⟨_, rfl⟩
  | rsv6 => exact ⟨_, rfl⟩
  | rsv7 => exact ⟨_, rfl⟩

/-! ### The cycle -/

/-- A phase runs its operation, or leaves the state alone (R110). -/
theorem phase_eq_next {c : Bool} {i : Instr} {s t : State} :
    phase c i s = .next t ↔ (c = true ∧ exec i s = .next t) ∨ (c = false ∧ t = s) := by
  cases c <;> simp [phase, eq_comm]

/-- A cycle without reset that answers `t` went through its phases in order (R110). -/
theorem cycle_eq_next {s t : State} (hr : s.env.pins.rst = false) : cycle s = .next t ↔
    ∃ s1 s2 s3 s4 s5,
      phase s.out.onPend .oncommit s = .next s1 ∧
      phase s1.align.homing .homing s1 = .next s2 ∧
      phase (s2.env.pins.hall != s2.sensor.hallQ) .edge s2 = .next s3 ∧
      phase s3.est.velPending .pidstep s3 = .next s4 ∧
      phase (s4.env.pins.cmdValid && cmdReady s) .cmd s4 = .next s5 ∧
      t = { s5 with now := s5.now + 1 } := by
  simp only [cycle, hr, Bool.false_eq_true, if_false, earlyPhases, andThen_eq_next]
  constructor
  · rintro ⟨s4, ⟨s1, h1, s2, h2, s3, h3, h4⟩, s5, h5, ht⟩
    exact ⟨s1, s2, s3, s4, s5, h1, h2, h3, h4, h5, by simpa [exec, execTick, eq_comm] using ht⟩
  · rintro ⟨s1, s2, s3, s4, s5, h1, h2, h3, h4, h5, rfl⟩
    exact ⟨s4, ⟨s1, h1, s2, h2, s3, h3, h4⟩, s5, h5, rfl⟩

/-- A cycle with reset (R260). -/
theorem cycle_of_rst {s : State} (hr : s.env.pins.rst = true) : cycle s = .next { State.reset with env := s.env } := by
  simp only [cycle, hr, if_true]; rfl

end Sys2Proof.Machine
end

