-- ==== Sys2Proof/Laws/PerInstr.lean ====
section
/-! SUPPORT. Facts that are said of every instruction, one lemma per constructor. -/
namespace Sys2Proof.Laws

/-- The `match` word of an instruction's row of spec/opcode_table.json under the mask `0x7 << 64`; a row without an encoding has
none (R91, R100). -/
def rowMatch : Instr → Option CmdWord
  | .nop => some 0x00000000000000000
  | .home => some 0x10000000000000000
  | .start _ _ => some 0x20000000000000000
  | .wrcfg _ _ => some 0x30000000000000000
  | .clrf _ => some 0x40000000000000000
  | .rsv5 => some 0x50000000000000000
  | .rsv6 => some 0x60000000000000000
  | .rsv7 => some 0x70000000000000000
  | .reset => none
  | .oncommit => none
  | .homing => none
  | .edge => none
  | .pidstep => none
  | .cmd => none
  | .tick => none
  | .decode _ => none
  | .drive _ _ => none
  | .commutate _ => none
  | .bookkeep _ => none
  | .refvisit => none
  | .pid => none
  | .budget _ => none
  | .profile => none

/-- Packing puts the opcode in bits 66:64 (R90). -/
theorem packWord_and_mask (op : BitVec 3) (a b : Word) :
    packWord op a b &&& (0x70000000000000000 : CmdWord) = (op.setWidth 67) <<< 64 := by
  have hm : (0x70000000000000000 : CmdWord) = (7#3).setWidth 67 <<< 64 := by decide
  rw [hm]
  apply BitVec.eq_of_getLsbD_eq
  intro i hi
  simp only [packWord, BitVec.getLsbD_and, BitVec.getLsbD_cast, BitVec.getLsbD_append, BitVec.getLsbD_shiftLeft,
    BitVec.getLsbD_setWidth]
  by_cases h : i < 64
  · simp [h]
  · have : ∀ j : Nat, j < 3 → (7#3).getLsbD j = true := by decide
    simp [this (i - 64) (by omega), h, hi, show i - 64 < 67 by omega]

end Sys2Proof.Laws

/-! ### `EncodesOpcode`: the encoder writes the opcode of the instruction's row, and no word for a row without an encoding. -/
namespace Sys2Proof.Laws.EncodesOpcode

/-- The encoded word matches the row of the opcode table. -/
def Statement (i : Instr) : Prop := (encode i).map (· &&& (0x70000000000000000 : CmdWord)) = rowMatch i

theorem nop : Statement .nop := congrArg some (packWord_and_mask _ _ _)
theorem home : Statement .home := congrArg some (packWord_and_mask _ _ _)
theorem start (rot vel : NumWord) : Statement (.start rot vel) := congrArg some (packWord_and_mask _ _ _)
theorem wrcfg (index : CfgIndex) (value : Word) : Statement (.wrcfg index value) := congrArg some (packWord_and_mask _ _ _)
theorem clrf (mask : BitVec 4) : Statement (.clrf mask) := congrArg some (packWord_and_mask _ _ _)
theorem rsv5 : Statement .rsv5 := congrArg some (packWord_and_mask _ _ _)
theorem rsv6 : Statement .rsv6 := congrArg some (packWord_and_mask _ _ _)
theorem rsv7 : Statement .rsv7 := congrArg some (packWord_and_mask _ _ _)
theorem reset : Statement .reset := rfl
theorem oncommit : Statement .oncommit := rfl
theorem homing : Statement .homing := rfl
theorem edge : Statement .edge := rfl
theorem pidstep : Statement .pidstep := rfl
theorem cmd : Statement .cmd := rfl
theorem tick : Statement .tick := rfl
theorem decode (raw : Sample) : Statement (.decode raw) := rfl
theorem drive (d : DriveState) (u : NumWord) : Statement (.drive d u) := rfl
theorem commutate (st : RotorState) : Statement (.commutate st) := rfl
theorem bookkeep (st : RotorState) : Statement (.bookkeep st) := rfl
theorem refvisit : Statement .refvisit := rfl
theorem pid : Statement .pid := rfl
theorem budget (a : RotorState) : Statement (.budget a) := rfl
theorem profile : Statement .profile := rfl

end Sys2Proof.Laws.EncodesOpcode
end

