-- ==== Sys2Proof/Machine/Script.lean ====
section
/-! DEFINITION. The spec's notation for stimulus (R98, R99) and the run of a finite script (R116). A script is no program of the
CORE, which executes none (R20): it stands for the host and the motor. -/
namespace Sys2Proof.Machine

/-- The statements of R98 and the pseudo-statements of R99. A decimal operand stands as its word (R88), and the mask of CLRF is the
whole 32-bit word that R98 puts on `b`. `wrcfg` takes the index that the name stands for; the index and not the name is also how
spec/95_test_vectors.md writes a reserved one (P3, `WRCFG 12`), as it writes a word that no statement of R98 gives (`raw`). -/
inductive Stmt where
  | rst
  | nop
  | home
  | start (rot vel : NumWord)
  | wrcfg (index : BitVec 4) (value : Word)
  | clrf (mask : Word)
  | raw (w : CmdWord)
  | wait (n : Nat)
  | hall (r : Sample)
  | state (s : RotorState)
  | waitrdy
  | goto (s : RotorState)
  | spin (k p : Nat)
  | rev (t : Nat)
  deriving DecidableEq, Repr

/-- What the script itself remembers: the sample it holds, and the direction of the last START it issued (R98, R99). -/
structure Stimulus where
  sample : Sample
  dir : Dir
  deriving DecidableEq, Repr

/-- The inverse map of R82 on 0..5. No sample stands for another state; 7 is given for those (DESIGN CHOICE,
notes/assumptions/17.md). -/
def rawOf (s : RotorState) : Sample := [5, 4, 6, 2, 3, 1, 7, 7].getD s.toNat 7

/-- The next rotor state in the direction of rotation (R99). From an Invalid sample it is the formula on state 7 (DESIGN CHOICE,
notes/assumptions/17.md). -/
def nextRotor (m : Stimulus) : RotorState :=
  let s : Int := (decodeSample m.sample).state.toNat
  match m.dir with
  | .forward => BitVec.ofInt 3 (emod (s + 1) 6)
  | .reverse => BitVec.ofInt 3 (emod (s - 1) 6)

/-- `n` cycles without a command. -/
def idle (n : Nat) (m : Stimulus) : List Pins :=
  List.replicate n { rst := false, hall := m.sample, cmdValid := false, cmd := 0 }

/-- For each number of the list: the next rotor state comes in its own cycle, after `before` and followed by `behind` idle
cycles. -/
def turn (m : Stimulus) : List (Nat × Nat) → Stimulus × List Pins
  | [] => (m, [])
  | (before, behind) :: rest =>
    let m' := { m with sample := rawOf (nextRotor m) }
    let (m'', ps) := turn m' rest
    (m'', idle before m ++ idle (1 + behind) m' ++ ps)

/-- One cycle that presents the command word `w`; a START sets the direction that the script remembers (R98, R99),
also one that a `raw` word presents (notes/assumptions/17.md). -/
def issue (w : CmdWord) (m : Stimulus) : Stimulus × List Pins :=
  let m' := match decodeCommand w with
    | .start _ vel => { m with dir := if vel.toInt < 0 then .reverse else .forward }
    | .nop => m
    | .home => m
    | .wrcfg _ _ => m
    | .clrf _ => m
    | .rsv5 => m
    | .rsv6 => m
    | .rsv7 => m
  (m', [{ rst := false, hall := m.sample, cmdValid := true, cmd := w }])

/-- The cycles of a statement, for one that does not wait for the CORE (R98, R99); `waitrdy` has none here. DESIGN CHOICE: R99 gives
no meaning to a `SPIN` with `p = 0` nor to a `REV T` with `T < 6`, whose formulas ask for a negative wait; a negative wait takes no
cycle here. What R98 leaves open on the command port is taken as 0 too: `a` and `b` of NOP, the word of a cycle without a command, and
the port in the cycle of `RST` (notes/assumptions/17.md). -/
def Stmt.cycles (m : Stimulus) : Stmt → Stimulus × List Pins
  | .rst => (m, [{ rst := true, hall := m.sample, cmdValid := false, cmd := 0 }])
  | .nop => issue (packWord 0 0 0) m
  | .home => issue (packWord 1 0 0) m
  | .start rot vel => issue (packWord 2 rot vel) m
  | .wrcfg index value => issue (packWord 3 (index.setWidth 32) value) m
  | .clrf mask => issue (packWord 4 0 mask) m
  | .raw w => issue w m
  | .wait n => (m, idle n m)
  | .hall r => ({ m with sample := r }, [])
  | .state s => ({ m with sample := rawOf s }, [])
  | .waitrdy => (m, [])
  | .goto s =>
    let m' := { m with sample := rawOf s }
    (m', idle 1 m')
  | .spin k p => turn m (List.replicate (6 * k) (0, p - 1))
  | .rev t =>
    let q := t / 6
    turn m (List.replicate 5 (q - 1, 0) ++ [(t - 5 * q - 1, 0)])

/-- Runs the cycles of a list of inputs (R110). -/
def runCycles : List Pins → State → Result
  | [], s => .next s
  | p :: ps, s => andThen (cycle { s with env := { s.env with pins := p } }) (runCycles ps)

/-- The cycles `WAITRDY` takes: none where the CORE is ready, else the settling delay and the capture (R99, R151). -/
def readyWait (s : State) : Nat := if cmdReady s then 0 else s.align.settleCnt.toNat + 1

/-- The run of a script (R116): its end state is the state after its last cycle. -/
def runScript : List Stmt → Stimulus → State → Result
  | [], _, s => .next s
  | .waitrdy :: rest, m, s => andThen (runCycles (idle (readyWait s) m) s) (runScript rest m)
  | st :: rest, m, s =>
    let (m', ps) := st.cycles m
    andThen (runCycles ps s) (runScript rest m')

end Sys2Proof.Machine
end

