-- ==== Sys2Proof/Tests/Slice0.lean ====
section
/-! SUPPORT. Tests of the model. The expected values are taken from spec/95_test_vectors.md (`V<n>`) or from the worked example
of the rule that a comment names. After them one witness for every statement that has hypotheses. -/
namespace Sys2Proof.Machine.Tests

/-! ## Helpers -/

/-- A view of the state that an operation answers. -/
def view {α : Type} (r : Result) (f : State → α) : Option α :=
  match r with
  | .next t => some (f t)
  | .fault _ => none
  | .refused _ => none

/-- Pins with a sample and no command. -/
def sample (h : Sample) : Pins := { rst := false, hall := h, cmdValid := false, cmd := 0 }

/-- Pins with a sample and a command word. -/
def word (h : Sample) (w : CmdWord) : Pins := { rst := false, hall := h, cmdValid := true, cmd := w }

/-- The pins of the present cycle. -/
def onPins (p : Pins) (s : State) : State := { s with env := { s.env with pins := p } }

/-- Tracking at rotor state 1 of `align_off = 0`, pattern 3 on the drivers (V9, row 4). -/
def tracking : State :=
  { State.reset with
    sensor := { hallQ := 4, rotorPrev := 1 }
    align := { State.reset.align with homed := true }
    driveState := 3
    out := { outLegs := 0x21, outDuty := 0x00010000, pendPat := 0x21, pendDuty := 0x00010000, onPend := false }
    pid := { State.reset.pid with targetMag := 0x000A0000, duty := 0x00010000 } }

/-- `tracking` with a budget of two counts, one left and the latch set. -/
def lastCount : State :=
  { tracking with budget :=
      { rem := 1, targetCnt := 2, latch := true, win := 2, budgetOn := true, done := false, prof := 0x00004000 } }

/-- Held: the budget is used up. -/
def held : State :=
  { tracking with budget :=
      { rem := 0, targetCnt := 2, latch := false, win := 2, budgetOn := true, done := true, prof := 0 } }

/-- Homing with `n` cycles of settling left. -/
def settling (n : BitVec 32) : State :=
  { State.reset with align := { State.reset.align with homing := true, settleCnt := n } }

/-- Some estimator state at time `now`. -/
def measuring (now tRef lastIv : Ticks) : State :=
  { tracking with now := now, est := { State.reset.est with tRef := tRef, tRefValid := true, lastIv := lastIv } }

/-- Inputs of one PID evaluation in the columns of V15; `I_MAX` is `NUM_MAX`. -/
def pidInput (target vel : NumWord) (dk : Ticks) (integ err duty kp ki kd : NumWord) : State :=
  { State.reset with
    est := { State.reset.est with velocity := vel, velTime := dk }
    pid := { targetMag := target, duty := duty, integ := integ, errPrev := err, tPrev := 0 }
    cfg := { State.reset.cfg with kp := kp, ki := ki, kd := kd } }

/-! ## WellFormed refuses ill-formed terms -/

theorem test_wellFormed_refuses_named_index_as_reserved : WellFormed (.wrcfg (.reserved 8) 0) = false := by decide
theorem test_wellFormed_accepts_reserved_index_9 : WellFormed (.wrcfg (.reserved 9) 0) = true := by decide
theorem test_wellFormed_refuses_duty_above_one : WellFormed (.drive 0 0x00010001) = false := by decide
theorem test_wellFormed_accepts_duty_one : WellFormed (.drive 0 0x00010000) = true := by decide
theorem test_wellFormed_refuses_negative_duty : WellFormed (.drive 0 0xFFFFFFFF) = false := by decide
theorem test_wellFormed_refuses_commutate_6 : WellFormed (.commutate 6) = false := by decide
theorem test_wellFormed_refuses_bookkeep_7 : WellFormed (.bookkeep 7) = false := by decide
theorem test_wellFormed_refuses_budget_6 : WellFormed (.budget 6) = false := by decide

/-! ## Decoding: words written out from R90, R91 and V19 to V22 -/

theorem test_decode_nop : decodeWord 0b000_00000000000000000000000000000000_00000000000000000000000000000000 = .nop := by
  decide
theorem test_decode_home : decodeWord 0b001_11011110101011011011111011101111_00010010001101000101011001111000 = .home := by
  decide
theorem test_decode_start : decodeWord 0b010_00000000000000101100000000000000_00000000000010100000000000000000 =
    .start 0x0002C000 0x000A0000 := by decide
theorem test_decode_wrcfg : decodeWord 0b011_11111111111111111111111111110001_00000000000000000100000000000000 =
    .wrcfg (.reg .ki) 0x4000 := by decide
theorem test_decode_wrcfg_reserved : decodeWord 0x30000000F00000000 = .wrcfg (.reserved 15) 0 := by decide
theorem test_decode_clrf : decodeWord 0b100_11111111111111111111111111111111_11111111111111111111111111111000 = .clrf 8 := by
  decide
theorem test_decode_rsv5 : decodeWord 0x50000000000000000 = .rsv5 := by decide
theorem test_decode_rsv6 : decodeWord 0x6123456789ABCDEF0 = .rsv6 := by decide
theorem test_decode_rsv7 : decodeWord 0x7FFFFFFFFFFFFFFFF = .rsv7 := by decide
theorem test_decode_indices : (List.range 9).map (fun i => decodeWord (BitVec.ofNat 67 (3 * 2 ^ 64 + i * 2 ^ 32 + 1))) =
    [CfgReg.kp, .ki, .kd, .iMax, .leadMag, .decelWin, .settle, .dutyInit, .homeDuty].map (fun r => .wrcfg (.reg r) 1) := by
  decide
theorem test_decode_bytes : decodeBytes [0x00, 0x00, 0x05, 0x00, 0x00, 0x00, 0x02, 0x00, 0x02] =
    .ok (.start 0x00020000 0x00050000) := by decide
theorem test_decode_bytes_above_port : decodeBytes [0, 0, 0, 0, 0, 0, 0, 0, 8] = .error .bitAboveThePort := by decide
theorem test_decode_table_word : decodeTableWord 72 0x20002000000050000 = some (.start 0x00020000 0x00050000) := by decide
theorem test_decode_table_no_bits : decodeTableWord 0 0 = none := by decide
theorem test_encode_start : encode (.start 0x00020000 0x00050000) = some 0x20002000000050000 := by decide

/-! ## Number format (V14) -/

theorem test_recip_66667 : recip 66667 = some 0x000EFFFB := by decide
theorem test_recip_saturates : recip 30 = some 0x7FFFFFFF := by decide
theorem test_ticks2num_78999 : ticks2num 78999 = 0x00001439 := by decide
/-- `nabs(NUM_MIN) = NUM_MAX` (R13). -/
theorem test_numAbs_min : numAbs 0x80000000 = 0x7FFFFFFF := by decide
/-- `div(1, 0)` is no value (R13). -/
theorem test_numDiv_zero : numDiv 0x00010000 0 = none := by decide

/-! ## Decoder, drive, commutation -/

/-- V1. -/
theorem test_decode_samples : (List.range 8).map (fun k => decodeSample (BitVec.ofNat 3 k)) =
    [⟨false, 7⟩, ⟨true, 5⟩, ⟨true, 3⟩, ⟨true, 4⟩, ⟨true, 1⟩, ⟨true, 0⟩, ⟨true, 2⟩, ⟨false, 7⟩] := by decide
/-- V3, from 1 to 2. -/
theorem test_drive_off_first : view (exec (.drive 2 0x8000) { State.reset with out := { State.reset.out with outLegs := 0x18 } })
    (fun t => (t.out.outLegs, t.out.pendPat, t.out.pendDuty, t.out.onPend, t.driveState)) =
    some (0x08, 0x09, 0x8000, true, 2) := by decide
/-- V3, the ONCOMMIT after it. -/
theorem test_oncommit_turns_on : view (exec .oncommit
    { State.reset with out := { outLegs := 0x08, outDuty := 0, pendPat := 0x09, pendDuty := 0x8000, onPend := true } })
    (fun t => (t.out.outLegs, t.out.outDuty, t.out.onPend)) = some (0x09, 0x8000, false) := by decide
/-- V6, `align_off = 2`, column 4: the source's example S9. -/
theorem test_commutate_s9 : view (exec (.commutate 4) { tracking with align := { tracking.align with alignOff := 2 } })
    (fun t => (t.driveState, t.out.pendPat, t.sensor.rotorPrev)) = some (4, 0x24, 4) := by decide
/-- V7, last row, `s = 0`: the sum is -6. -/
theorem test_commutate_negative_sum : view (exec (.commutate 0)
    { tracking with
      align := { tracking.align with alignOff := 5 }, dir := .reverse, cfg := { tracking.cfg with leadMag := 7 } })
    (fun t => t.driveState) = some 0 := by decide
/-- V9, row 9. -/
theorem test_edge_commutates : view (exec .edge (onPins (sample 6) tracking))
    (fun t => (t.sensor.hallQ, t.sensor.rotorPrev, t.driveState, t.out.outLegs, t.out.pendPat, t.flags)) =
    some (6, 2, 4, 0x20, 0x24, 0) := by decide
/-- V9, row 5. -/
theorem test_edge_invalid : view (exec .edge (onPins (sample 7) tracking))
    (fun t => (t.sensor.hallQ, t.sensor.rotorPrev, t.out.onPend, t.flags)) = some (7, 1, false, 1) := by decide
/-- V12, cycle 6. -/
theorem test_homing_captures : view (exec .homing (onPins (sample 6) (settling 0)))
    (fun t => (t.align.homing, t.align.homed, t.align.alignOff)) = some (false, true, 2) := by decide
/-- V12, cycle 3. -/
theorem test_homing_fails : view (exec .homing (onPins (sample 7) (settling 0)))
    (fun t => (t.align.homing, t.align.homed, t.align.homeFail, t.flags)) = some (false, false, true, 2) := by decide

/-! ## Velocity, PID, budget -/

/-- R167: `iv = 63` across the wrap of `now`, and `fx(1000000 / 63)` is 1040253968 steps. -/
theorem test_refvisit_across_wrap : view (exec .refvisit (measuring 0x10 0xFFFFFFD1 5))
    (fun t => (t.est.lastIv, t.est.velocity, t.est.velPending, t.est.tRef)) = some (63, 1040253968, true, 0x10) := by decide
/-- V13, visit 250100. -/
theorem test_refvisit_unchanged : view (exec .refvisit (measuring 250100 125100 125000))
    (fun t => (t.est.tRef, t.est.velPending, t.flags)) = some (250100, false, 4) := by decide
/-- R160. -/
theorem test_tick_wraps : view (exec .tick { State.reset with now := 0xFFFFFFFF }) (fun t => t.now) = some 0 := by decide
/-- R161: a return to aligned state 0 with the latch set counts, and starts the measurement. -/
theorem test_bookkeep_counts : view (exec (.bookkeep 0) lastCount)
    (fun t => (t.est.tRefValid, t.budget.rem, t.budget.latch, t.budget.done, t.budget.prof)) =
    some (true, 0, false, true, 0) := by decide
/-- V15, row g. -/
theorem test_pid_row_g : view (exec .pid (pidInput 0x000A0000 0x00080000 100000 0 0 0 0 0x00010000 0))
    (fun t => (t.pid.integ, t.pid.duty, t.pid.errPrev, t.pid.tPrev, t.flags)) =
    some (0x00003332, 0x00003332, 0x00020000, 100000, 0) := by decide
/-- V15, row d. -/
theorem test_pid_row_d : view (exec .pid (pidInput 0x000A0000 0x00080000 10 0x6000 0x00010000 0x4000 0x8000 0x4000 0x1000))
    (fun t => (t.pid.integ, t.pid.duty, t.pid.errPrev, t.flags)) = some (0x6000, 0x00010000, 0x00020000, 4) := by decide
/-- V25, cycle 225004 (the state before it has `pid_cnt = 2`). -/
theorem test_pidstep_waits : view (exec .pidstep { tracking with est := { tracking.est with velPending := true, pidCnt := 2 } })
    (fun t => (t.est.pidCnt, t.est.velPending, t.pid.duty)) = some (1, true, 0x00010000) := by decide
/-- V25: the publication with `PID_LATENCY = 2`. -/
theorem test_publish_latency_two : view (refVisitWith 2 (measuring 225003 100003 100000))
    (fun t => (t.est.velocity, t.est.pidCnt, t.est.velPending)) = some (0x00080000, 2, true) := by decide
/-- V18, row d: state 5 sets the latch. -/
theorem test_budget_arms : view (exec (.budget 5) { lastCount with budget := { lastCount.budget with latch := false } })
    (fun t => (t.budget.latch, t.budget.rem)) = some (true, 1) := by decide
/-- V18, row e: a negative count moves up to 0. -/
theorem test_budget_negative_count : view (exec (.budget 0) { lastCount with budget := { lastCount.budget with rem := -1 } })
    (fun t => (t.budget.rem, t.budget.done)) = some (0, true) := by decide
/-- V16, `win = 5`, `m = 4`. -/
theorem test_profile_floors_twice : view (exec .profile { lastCount with budget := { lastCount.budget with win := 5, rem := -4 } })
    (fun t => t.result) = some (.factor 0x0000A3D5) := by decide

/-! ## Commands -/

/-- V19, second NOP row. -/
theorem test_nop : view (exec .nop tracking) (fun t => t) = some tracking := by decide
/-- V19, HOME. -/
theorem test_home : view (exec .home State.reset)
    (fun t => (statusWord t, rotorWord t, t.align.settleCnt, t.out.pendPat, t.out.pendDuty)) =
    some (0x202, 0x007, 0xF4240, 0x12, 0x10000) := by decide
/-- V22, row c. -/
theorem test_start_reverse_kick : view (exec (.start 0x00140000 0x80000000) (onPins (sample 6)
    { State.reset with sensor := { hallQ := 6, rotorPrev := 7 }, align := { State.reset.align with homed := true, alignOff := 2 } }))
    (fun t => (statusWord t, rotorWord t, t.pid.targetMag, t.budget.rem, t.budget.win, t.out.pendPat)) =
    some (0x219, 0x6422, 0x7FFFFFFF, 0x14, 8, 0x24) := by decide
/-- V17: -7/2 counts; and V26: no kick. -/
theorem test_start_without_kick : view (startWith false 0xFFFC8000 0x000A0000 (onPins (sample 5)
    { State.reset with sensor := { hallQ := 5, rotorPrev := 7 }, align := { State.reset.align with homed := true } }))
    (fun t => (t.budget.targetCnt, t.budget.win, t.sensor.rotorPrev, t.out.onPend)) = some (0xFFFFFFFD, 3, 7, false) := by decide
/-- V20, I_MAX and DECEL_WIN. -/
theorem test_wrcfg_normalises : (view (exec (.wrcfg (.reg .iMax) 0x80000000) State.reset) (fun t => t.cfg.iMax),
    view (exec (.wrcfg (.reg .decelWin) 0x00012345) State.reset) (fun t => t.cfg.decelWin)) =
    (some 0x7FFFFFFF, some 0x2345) := by decide
/-- V20, DUTY_INIT and HOME_DUTY. -/
theorem test_wrcfg_clamps : (view (exec (.wrcfg (.reg .dutyInit) 0x00020000) State.reset) (fun t => t.cfg.dutyInit),
    view (exec (.wrcfg (.reg .homeDuty) 0xFFFFFFFF) State.reset) (fun t => t.cfg.homeDuty)) = (some 0x10000, some 0) := by decide
/-- V21. -/
theorem test_clrf : view (exec (.clrf 5) { State.reset with flags := 0xF }) (fun t => t.flags) = some 0xA := by decide
/-- V19. -/
theorem test_rsv5 : view (exec .rsv5 State.reset) (fun t => t.flags) = some 8 := by decide
/-- V19. -/
theorem test_rsv6 : view (exec .rsv6 State.reset) (fun t => t.flags) = some 8 := by decide
/-- V19. -/
theorem test_rsv7 : view (exec .rsv7 State.reset) (fun t => t.flags) = some 8 := by decide
/-- V19, the row of index 9, through CMD. -/
theorem test_cmd_reserved_index : view (exec .cmd (onPins (word 0 0x30000000900000001) State.reset)) (fun t => (t.flags, t.cfg)) =
    some (8, State.reset.cfg) := by decide
/-- V23: reset wins over a START in the same cycle. -/
theorem test_reset : view (step (withScript tracking [{ rst := true, hall := 3, cmdValid := true, cmd := 0x20002000000050000 }]))
    (fun t => (rotorWord t, t.now, t.pid, t.out)) = some (0x0707, 0, State.reset.pid, State.reset.out) := by decide
/-- V21: a flag that EDGE raises in the cycle of the CLRF is cleared by it. -/
theorem test_step_clrf_after_edge : view (step (withScript tracking [word 7 0x40000000000000001])) (fun t => (t.flags, t.now)) =
    some (0, 1) := by decide

/-- The start state of the worked example R117. -/
def exampleStart : State :=
  { tracking with
    sensor := { hallQ := 1, rotorPrev := 5 }
    driveState := 1
    out := { outLegs := 0x18, outDuty := 0x8000, pendPat := 0x18, pendDuty := 0x8000, onPend := false }
    now := 126000
    est := { State.reset.est with tRef := 1000, tRefValid := true }
    pid := { targetMag := 0x000A0000, duty := 0x8000, integ := 0, errPrev := 0, tPrev := 1000 } }

/-- R117, the drive. -/
theorem test_step_example_drive : view (step (withScript exampleStart [sample 5]))
    (fun t => (t.driveState, t.out.outLegs, t.out.pendPat, t.out.pendDuty, t.now)) = some (2, 0x08, 0x09, 0x8000, 126001) := by
  decide
/-- R117, the estimate and the controller. -/
theorem test_step_example_pid : view (step (withScript exampleStart [sample 5]))
    (fun t => (t.est.velocity, t.est.velPending, t.pid.duty, t.pid.integ, t.pid.errPrev, t.pid.tPrev)) =
    some (0x00080000, false, 0x00010000, 0x4000, 0x00020000, 126000) := by decide +kernel

/-- The host's fetch runs the word it places. -/
theorem test_withFetchWord : view (step (State.reset.withFetchWord 72 0x20002000000050000))
    (fun t => (t.budget.rem, t.pid.targetMag, t.now)) = some (2, 0x00050000, 1) := by decide

/-! ## Scripts (R98, R99) -/

/-- R99: `REV 13` from rotor state 5 forward ends in state 5 after 13 cycles: five steps of two cycles and one of three. -/
theorem test_rev_cycles : ((Stmt.cycles ⟨1, .forward⟩ (.rev 13)).2.map (fun p => p.hall)) =
    [1, 5, 5, 4, 4, 6, 6, 2, 2, 3, 3, 3, 1] := by decide
/-- P3, cycles 1, 3 and 15: the words the script's statements present. -/
theorem test_script_words : ([Stmt.raw 0x5123456789ABCDEF0, .wrcfg 12 0x00010000, .clrf 0xFFFFFFF5].map fun st =>
    (st.cycles ⟨7, .forward⟩).2.map (fun p => p.cmd)) =
    [[0x5123456789ABCDEF0], [0x30000000C00010000], [0x400000000FFFFFFF5]] := by decide
/-- V8, cycle 2, as a script. -/
theorem test_script_unhomed : view (runScript [.hall 5, .wait 1, .hall 7, .wait 1] ⟨0, .forward⟩ State.reset)
    (fun t => (t.sensor.hallQ, t.sensor.rotorPrev, t.flags)) = some (7, 7, 0) := by decide

/-! ## Witnesses: states and operands that meet the hypotheses of the statements -/

/-- `DecodeReadsBackEncode`. -/
theorem witness_decodeReadsBackEncode :
    WellFormed (.wrcfg (.reserved 9) 5) = true ∧ encode (.wrcfg (.reserved 9) 5) = some 0x30000000900000005 := by decide
/-- `EveryWordSelectsItsRow`: the opcodes 0 to 7, the register indices' ends and the reserved indices' ends. -/
theorem witness_everyWordSelectsItsRow :
    (List.range 8).map (fun k => (BitVec.ofNat 67 (k * 2 ^ 64)).toNat / 2 ^ 64) = [0, 1, 2, 3, 4, 5, 6, 7] ∧
    (0x30000000800000000 : CmdWord).toNat / 2 ^ 32 % 2 ^ 32 % 16 = 8 ∧
    (0x30000000900000000 : CmdWord).toNat / 2 ^ 32 % 2 ^ 32 % 16 = 9 ∧
    (0x30000000F00000000 : CmdWord).toNat / 2 ^ 32 % 2 ^ 32 % 16 = 15 := by decide
/-- `BytesOfAWordDecodeToItsRow`: too few bytes, too many, and bit 67. -/
theorem witness_bytesOfAWord : ([] : List Byte).length ≠ 9 ∧ (List.replicate 10 (0 : Byte)).length ≠ 9 ∧
    2 ^ 67 ≤ bytesToNat [0, 0, 0, 0, 0, 0, 0, 0, 8] := by decide
/-- `DriveTableMeetsItsConstraints`: an even, an odd and the last state; a pattern without a short. -/
theorem witness_driveTable : (0 : DriveState).toNat % 2 = 0 ∧ (5 : DriveState).toNat ≤ 5 ∧ (5 : DriveState).toNat % 2 = 1 ∧
    NoShootThrough 0x12 := by decide
/-- `DriveTurnsOffBeforeOn`: a driver that goes off, one that stays and one that waits. -/
theorem witness_driveTurnsOff : (driveTable 2).getLsbD 4 = false ∧ (driveTable 2).getLsbD 0 = true ∧
    (0x18 : Pattern).getLsbD 0 = false ∧ (0x18 : Pattern).getLsbD 3 = true := by decide
/-- `DriveResult`, `DriveTurnsOffBeforeOn`: the ends of the duty and of the drive state. -/
theorem witness_driveResult : WellFormed (.drive 0 0) = true ∧ WellFormed (.drive 7 0x00010000) = true := by decide
/-- `CommutateResult`, `BookkeepResult`, `BudgetResult`: the ends of the rotor and aligned states. -/
theorem witness_rotorOperands : WellFormed (.commutate 0) = true ∧ WellFormed (.commutate 5) = true ∧
    WellFormed (.bookkeep 0) = true ∧ WellFormed (.bookkeep 5) = true ∧ WellFormed (.budget 0) = true ∧
    WellFormed (.budget 5) = true := by decide
/-- `PinDutiesAreSafe`, `ModeTransitions`: legal states of the four modes. -/
theorem witness_legal_tracking : Legal tracking := by decide
theorem witness_legal_lastCount : Legal lastCount := by decide
theorem witness_legal_held : Legal held := by decide
theorem witness_legal_homing : Legal (settling 0) := by decide
theorem witness_legal_unhomed : Legal { State.reset with flags := 2 } := by decide
/-- `EveryOperationKeepsLegal`. -/
theorem witness_everyOperationKeepsLegal : Legal tracking ∧ WellFormed (.drive 3 0x00010000) = true ∧
    (view (exec (.drive 3 0x00010000) tracking) (fun t => t.driveState)).isSome = true := by decide
/-- `StepKeepsLegal`, `StepIsTotal`. -/
theorem witness_stepKeepsLegal : Legal lastCount ∧
    (view (step (withScript lastCount [sample 5])) (fun t => t.budget.done)) = some true := by decide
/-- `EdgeOnlyTracksSampleBeforeHoming`. -/
theorem witness_edgeBeforeHoming : State.reset.align.homed = false ∧ (settling 0).align.homing = true := by decide
/-- `EdgeOnInvalidSample`: both Invalid codes, in Tracking and in Held mode. -/
theorem witness_edgeInvalid : (onPins (sample 7) tracking).align.homed = true ∧ (onPins (sample 7) tracking).align.homing = false ∧
    (onPins (sample 7) tracking).env.pins.hall = 7 ∧ (onPins (sample 0) held).env.pins.hall = 0 ∧
    (onPins (sample 0) held).align.homed = true ∧ (onPins (sample 0) held).align.homing = false := by decide
/-- `EdgeWithoutChangeOrHeldOnlyTracksSample`: the state of `rotor_prev`, and another one in Held mode, at samples 4, 1 and 6. -/
theorem witness_edgeWithoutChange : (decodeSample (onPins (sample 4) tracking).env.pins.hall).state = tracking.sensor.rotorPrev ∧
    1 ≤ (sample 1).hall.toNat ∧ (sample 6).hall.toNat ≤ 6 ∧ tracking.align.homed = true ∧ tracking.align.homing = false ∧
    held.budget.done = true ∧ held.align.homed = true ∧ held.align.homing = false := by decide
/-- `EdgeCommutatesThenBooks`: the ends 1 and 6 of the valid samples. -/
theorem witness_edgeCommutates : modeOf tracking = .tracking ∧ (decodeSample (sample 1).hall).state ≠ tracking.sensor.rotorPrev ∧
    (decodeSample (sample 6).hall).state ≠ tracking.sensor.rotorPrev ∧ 1 ≤ (sample 1).hall.toNat ∧ (sample 6).hall.toNat ≤ 6 := by
  decide
/-- `HomingResult`: waiting, capturing at samples 1 and 6, failing at 0 and 7. -/
theorem witness_homingResult : (settling 1).align.settleCnt ≠ 0 ∧ (settling 0).align.settleCnt = 0 ∧
    1 ≤ (onPins (sample 1) (settling 0)).env.pins.hall.toNat ∧ (onPins (sample 6) (settling 0)).env.pins.hall.toNat ≤ 6 ∧
    (onPins (sample 0) (settling 0)).env.pins.hall = 0 ∧ (onPins (sample 7) (settling 0)).env.pins.hall = 7 := by decide
/-- `HomingTimeline`: `SETTLE = 1`, one waiting cycle; both outcomes of the capture. -/
theorem witness_homingTimeline : State.reset.align.homing = false ∧ (word 5 0x10000000000000000).rst = false ∧
    (word 5 0x10000000000000000).cmdValid = true ∧ decodeWord (word 5 0x10000000000000000).cmd = .home ∧
    [sample 7].length = ({ State.reset with cfg := { State.reset.cfg with settle := 1 } } : State).cfg.settle.toNat ∧
    (∀ p ∈ [sample 7], p.rst = false) ∧ (sample 6).rst = false ∧ (decodeSample (sample 6).hall).valid = true ∧
    (decodeSample (sample 7).hall).valid = false := by decide
/-- `AlignOffIsWrittenOnlyByCapture`. -/
theorem witness_alignOffWritten : view (step (withScript (settling 0) [sample 6])) (fun t => t.align.alignOff) = some 2 ∧
    (settling 0).align.alignOff ≠ 2 := by decide
/-- `BookkeepResult`: aligned state 0, and the ends 1 and 5 of the others. -/
theorem witness_bookkeepResult : ((0 : Int) - 0 + 6) % 6 = 0 ∧ ((1 : Int) - 0 + 6) % 6 = 1 ∧ ((0 : Int) - 1 + 6) % 6 = 5 := by
  decide
/-- `RefvisitResult`: unmeasured, zero, unchanged, publishing (intervals 1 and `2^32 - 1`). -/
theorem witness_refvisitResult : State.reset.est.tRefValid = false ∧ (measuring 7 7 0).est.tRefValid = true ∧
    (7 + 2 ^ 32 - 7) % 2 ^ 32 = 0 ∧ (8 + 2 ^ 32 - 7) % 2 ^ 32 = 1 ∧ (measuring 8 7 1).est.lastIv.toNat = 1 ∧
    (measuring 8 7 0).est.lastIv.toNat ≠ 1 ∧ (6 + 2 ^ 32 - 7) % 2 ^ 32 = 2 ^ 32 - 1 := by decide
/-- `PublishedVelocityRange`: the intervals 30 and 31 on the two sides of the saturation. -/
theorem witness_publishedVelocity : (measuring 37 7 0).est.tRefValid = true ∧ (37 : Ticks) ≠ 7 ∧ (37 : Ticks) - 7 ≠ 0 ∧
    ((37 : Ticks) - 7).toNat = 30 ∧ ((38 : Ticks) - 7).toNat = 31 := by decide
/-- `EstimatorRestsOutsideTracking`: Unhomed and Held. -/
theorem witness_estimatorRests : modeOf State.reset = .unhomed ∧ modeOf held = .held ∧
    (nextPins (withScript held [sample 5])).rst = false ∧
    (view (step (withScript held [sample 5])) (fun t => t.est)) = some held.est ∧
    (view (step (withScript State.reset [sample 5])) (fun t => t.est)) = some State.reset.est := by decide
/-- `EstimatorRestsOutsideTracking` in Homing mode: a settling cycle, an Invalid capture, and a capture with `done` set. -/
theorem witness_estimatorRestsHoming : modeOf (settling 1) = .homing ∧ (settling 1).align.settleCnt ≠ 0 ∧
    (nextPins (withScript (settling 1) [sample 5])).rst = false ∧ modeOf (settling 0) = .homing ∧
    (decodeSample (nextPins (withScript (settling 0) [sample 7])).hall).valid = false ∧
    (nextPins (withScript (settling 0) [sample 7])).rst = false ∧
    modeOf { settling 0 with budget := held.budget } = .homing ∧ held.budget.done = true := by decide
/-- `PidstepResult`. -/
theorem witness_pidstepResult : ({ tracking.est with pidCnt := 1 } : Estimator).pidCnt ≠ 0 ∧ tracking.est.pidCnt = 0 := by decide
/-- `PidSkipsDerivativeBelowSixteenTicks`: 15 and 16 ticks. -/
theorem witness_pidSixteenTicks : ((15 : Ticks) - 0).toNat ≤ 15 ∧ 16 ≤ ((16 : Ticks) - 0).toNat := by decide
/-- `PidResult`, `IntegralStaysWithinIMax`: the ends of `I_MAX`. -/
theorem witness_integral : 0 ≤ State.reset.cfg.iMax.toInt ∧ 0 ≤ (0 : NumWord).toInt := by decide
/-- `FirstPidForgetsTheOldSession`: two states with different controllers. -/
theorem witness_firstPid : State.reset.cfg = tracking.cfg ∧ State.reset.now = tracking.now ∧ State.reset.pid ≠ tracking.pid := by
  decide
/-- `ProfileResult`: outside and inside the window. -/
theorem witness_profileResult : State.reset.budget.budgetOn = false ∧
    ¬(lastCount.budget.budgetOn = false ∨ lastCount.budget.win = 0 ∨
      lastCount.budget.win.toNat ≤ lastCount.budget.rem.toInt.natAbs) := by decide
/-- `BudgetResult`: its five clauses, at aligned states 0, 1, 2, 3 and 5. -/
theorem witness_budgetResult : State.reset.budget.budgetOn = false ∧ lastCount.budget.budgetOn = true ∧
    3 ≤ (3 : RotorState).toNat ∧ 3 ≤ (5 : RotorState).toNat ∧ (1 : RotorState).toNat = 1 ∧ (2 : RotorState).toNat = 2 ∧
    lastCount.budget.latch = true ∧ held.budget.latch = false ∧ held.budget.budgetOn = true := by decide
/-- `CountMovesOnlyTowardZero`, `SessionConstantsChangeOnlyAtStart`: a counting cycle without a command. -/
theorem witness_countMoves : (nextPins (withScript lastCount [sample 5])).rst = false ∧
    (nextPins (withScript lastCount [sample 5])).cmdValid = false ∧
    (view (step (withScript lastCount [sample 5])) (fun t => t.budget.rem)) = some 0 := by decide
/-- `NopIsNoCommand`. -/
theorem witness_nop : decodeWord (word 4 0x0FFFFFFFFFFFFFFFF).cmd = .nop := by decide
/-- `StartResult`: unhomed; homed at both Invalid codes and at samples 1 and 6. -/
theorem witness_startResult : State.reset.align.homed = false ∧ tracking.align.homed = true ∧
    (onPins (sample 0) tracking).env.pins.hall = 0 ∧ (onPins (sample 7) tracking).env.pins.hall = 7 ∧
    1 ≤ (onPins (sample 1) tracking).env.pins.hall.toNat ∧ (onPins (sample 6) tracking).env.pins.hall.toNat ≤ 6 := by decide
/-- `RotationCountIsTruncated`: the ends of the two signs. -/
theorem witness_rotationCount : 0 ≤ (0 : NumWord).toInt ∧ 0 ≤ (0x7FFFFFFF : NumWord).toInt ∧ (0xFFFFFFFF : NumWord).toInt < 0 ∧
    (0x80000000 : NumWord).toInt < 0 := by decide
/-- `ConfigurationChangesOnlyByWrcfg`. -/
theorem witness_configuration : Accepts (withScript tracking [word 4 0x3000000010000C000]) (.wrcfg (.reg .ki) 0xC000) ∧
    (view (step (withScript tracking [word 4 0x3000000010000C000])) (fun t => t.cfg.ki)) = some 0xC000 ∧
    tracking.cfg.ki ≠ 0xC000 := by decide
/-- `WrcfgResult`: the ends of the reserved indices. -/
theorem witness_wrcfgReserved : 9 ≤ (9 : BitVec 4).toNat ∧ 9 ≤ (15 : BitVec 4).toNat ∧
    WellFormed (.wrcfg (.reserved 9) 0) = true ∧ WellFormed (.wrcfg (.reserved 15) 0) = true := by decide
/-- `RegisterMapEntriesReadTheirElements`: the ends of the reserved entries. -/
theorem witness_registerMap : 9 ≤ (9 : BitVec 5).toNat ∧ (9 : BitVec 5).toNat ≤ 15 ∧ 9 ≤ (15 : BitVec 5).toNat ∧
    (15 : BitVec 5).toNat ≤ 15 := by decide
/-- `WrcfgReadsBack`: an entry other than the written one. -/
theorem witness_wrcfgReadsBack : (16 : BitVec 5) ≠ (cfgRegCode .kp).setWidth 5 := by decide
/-- `ResetWins`. -/
theorem witness_resetWins : (nextPins (withScript tracking [{ rst := true, hall := 3, cmdValid := true, cmd := 0 }])).rst = true := by
  decide
/-- `StepRunsTheDecodedCommand`. -/
theorem witness_stepRuns : Accepts (withScript tracking [word 4 0x2FFFD4000FFF60000]) (.start 0xFFFD4000 0xFFF60000) := by decide
/-- `CycleRunsItsPhasesInOrder`. -/
theorem witness_cycle : (nextPins (withScript tracking [word 5 0])).rst = false ∧ (nextPins (withScript tracking [word 5 0])).cmdValid = true ∧
    (sample 5).hall ≠ tracking.sensor.hallQ := by decide
/-- `DriveStateStaysCommanded`. -/
theorem witness_driveState : (nextPins (withScript tracking [sample 5])).rst = false ∧
    (view (step (withScript tracking [sample 5])) (fun t => t.driveState)) = some 2 ∧ tracking.driveState ≠ 2 := by decide
/-- `FlagsAreSticky`: a flag that falls. -/
theorem witness_flagsSticky : (0b1000 : BitVec 4).getLsbD 3 = true ∧
    (view (step (withScript { tracking with flags := 0b1000 } [word 4 0x40000000000000008])) (fun t => t.flags.getLsbD 3)) =
    some false := by decide
/-- `ModeTransitions`: the four modes, the two homing outcomes, an accepted HOME and START, and Tracking to Held. -/
theorem witness_modes : modeOf State.reset = .unhomed ∧ modeOf (settling 1) = .homing ∧ modeOf tracking = .tracking ∧
    modeOf held = .held ∧ Accepts (withScript held [word 4 0x10000000000000000]) .home ∧
    Accepts (withScript held [word 4 0x20000000000000000]) (.start 0 0) ∧
    (view (step (withScript (settling 0) [sample 7])) modeOf) = some .unhomed ∧
    (view (step (withScript (settling 0) [sample 5])) modeOf) = some .tracking ∧
    (view (step (withScript { settling 0 with budget := held.budget } [sample 5])) modeOf) = some .held ∧
    (view (step (withScript lastCount [sample 5])) modeOf) = some .held := by decide
/-- `ModeTransitions`: a capture in a cycle whose EDGE spends the last count of the loaded session. -/
theorem witness_capture_into_held :
    (view (step (withScript { settling 0 with sensor := { hallQ := 4, rotorPrev := 7 }, budget := lastCount.budget } [sample 5]))
      (fun t => (modeOf t, t.budget.rem))) = some (.held, 0) := by decide
/-- `HeldFreezesTheDrive`: a quiet cycle with a command and one without. -/
theorem witness_held : modeOf held = .held ∧ ∀ p ∈ [sample 7, sample 5], p.rst = false ∧ p.cmdValid = false := by decide
/-- A CLRF keeps a cycle quiet. -/
theorem witness_quiet : Quiet (word 5 0x40000000000000001) :=
  ⟨rfl, fun _ => ⟨by decide, fun rot vel h => by
    rw [show decodeWord (word 5 0x40000000000000001).cmd = .clrf 1 by decide] at h; cases h⟩⟩
/-- `CommandsDuringHomingAreLost`. -/
theorem witness_commandsLost : (settling 1).align.homing = true := by decide
/-- `NowCountsCycles`: a run over the wrap. -/
theorem witness_now : (∀ p ∈ [sample 5, word 5 0], p.rst = false) ∧ ((0xFFFFFFFF : Ticks).toNat + 2) % 2 ^ 32 = 1 := by decide
/-- `EdgeReachesThePinsInTwoCycles`. -/
theorem witness_twoCycles : modeOf tracking = .tracking ∧ (sample 5).hall ≠ tracking.sensor.hallQ ∧
    (decodeSample (sample 5).hall).valid = true ∧ (decodeSample (sample 5).hall).state ≠ tracking.sensor.rotorPrev ∧
    (sample 5).rst = false ∧ (sample 5).cmdValid = false := by decide

end Sys2Proof.Machine.Tests
end

section
/-! Legal states (R53 to R56, R58): what each shared update keeps of `Legal`, then that every operation and every step keeps it. -/
namespace Sys2Proof.Machine

/-- An operation answers one state. -/
theorem next_unique {r : Result} {s t : State} (hs : r = .next s) (ht : r = .next t) : t = s := by
  cases hs.symm.trans ht; rfl

/-! ### The shared updates keep a legal state legal -/

theorem noShootThrough_of_mem {p : Pattern} (h : p ∈ driveTableList) : NoShootThrough p := by
  revert p; decide

theorem decodeSample_state_le {raw : Sample} (h : (decodeSample raw).valid = true) : (decodeSample raw).state.toNat ≤ 5 := by
  obtain ⟨-, hle, -⟩ | ⟨hinvalid, -⟩ := decodeSample_cases raw
  · exact hle
  · exact absurd (h.symm.trans hinvalid) (by decide)

/-- A well-formed duty is in [0, 1] (R125). -/
theorem inUnit_of_dutyOk {u : NumWord} (h : dutyOk u = true) : InUnit u := by
  have hu : u.toNat ≤ 65536 := by simpa [dutyOk] using h
  rw [InUnit, BitVec.toInt_eq_toNat_of_lt (by omega)]
  omega

/-- No rule of the legal states speaks of a flag, of the stimulus, of the time base or of `result`. -/
theorem Legal.raise {s : State} (k : ErrorKind) (h : Legal s) : Legal (raise k s) := h

theorem Legal.tracked {s : State} (h : Legal s) : Legal (tracked s) := h

theorem Legal.present {s : State} (h : Legal s) : Legal (present s) := by
  simpa only [Legal, RotorLegal, OutputsLegal, DutiesLegal, MagnitudesLegal, HomingLegal, present_sensor, present_align,
    present_out, present_est, present_pid, present_budget, present_cfg] using h

/-- DRIVE turns drivers off and stores a table entry (R125). -/
theorem Legal.driveLegs {s : State} (d : DriveState) {u : NumWord} (hu : InUnit u) (h : Legal s) : Legal (driveLegs d u s) := by
  obtain ⟨hrotor, -, ⟨hduty, hprof, -, hrest⟩, hmag, hbudget, hhoming⟩ := h
  exact ⟨hrotor, ⟨noShootThrough_and (driveTable_noShootThrough d), driveTable_mem d⟩, ⟨hduty, hprof, hu, hrest⟩, hmag,
    hbudget, hhoming⟩

/-- ONCOMMIT turns a table entry on (R126). -/
theorem Legal.turnOn {s : State} (h : Legal s) : Legal (turnOn s) := by
  obtain ⟨hrotor, ⟨-, hpend⟩, ⟨hduty, hprof, hpendDuty, -, hcfg⟩, hmag, hbudget, hhoming⟩ := h
  exact ⟨hrotor, ⟨noShootThrough_of_mem hpend, hpend⟩, ⟨hduty, hprof, hpendDuty, hpendDuty, hcfg⟩, hmag, hbudget, hhoming⟩

theorem Legal.rotorPrev {s : State} {st : RotorState} (hst : st.toNat ≤ 5 ∨ st = 7) (h : Legal s) :
    Legal { s with sensor := { s.sensor with rotorPrev := st } } := by
  obtain ⟨⟨-, halign⟩, hrest⟩ := h
  exact ⟨⟨hst, halign⟩, hrest⟩

theorem Legal.commutateTo {s : State} {st : RotorState} (hst : st.toNat ≤ 5) (h : Legal s) : Legal (commutateTo st s) :=
  (h.rotorPrev (.inl hst)).driveLegs _ (dutyEff_inUnit s)

/-- HOMING and HOME write the alignment alone of what the invariants read (R56). -/
theorem Legal.align {s : State} {a : Alignment} (hoff : a.alignOff.toNat ≤ 5) (hhoming : a.homing = true → a.homed = false)
    (h : Legal s) : Legal { s with align := a } := by
  obtain ⟨⟨hprev, -⟩, hout, hduties, hmag, hbudget, -⟩ := h
  exact ⟨⟨hprev, hoff⟩, hout, hduties, hmag, hbudget, hhoming⟩

theorem Legal.est {s : State} {e : Estimator} (hv : 0 ≤ e.velocity.toInt) (hc : e.pidCnt.toNat ≤ Config.pidLatency.toNat)
    (h : Legal s) : Legal { s with est := e } := by
  obtain ⟨hrotor, hout, hduties, ⟨-, htarget, himax, -⟩, hrest⟩ := h
  exact ⟨hrotor, hout, hduties, ⟨hv, htarget, himax, hc⟩, hrest⟩

theorem Legal.pid {s : State} {p : PidState} (ht : 0 ≤ p.targetMag.toInt) (hd : InUnit p.duty) (h : Legal s) :
    Legal { s with pid := p } := by
  obtain ⟨hrotor, hout, ⟨-, hduties⟩, ⟨hv, -, himax, hc⟩, hrest⟩ := h
  exact ⟨hrotor, hout, ⟨hd, hduties⟩, ⟨hv, ht, himax, hc⟩, hrest⟩

theorem Legal.budget {s : State} {b : Budget} (hb : BudgetLegal b) (hp : InUnit b.prof) (h : Legal s) :
    Legal { s with budget := b } := by
  obtain ⟨hrotor, hout, ⟨hduty, -, hduties⟩, hmag, -, hhoming⟩ := h
  exact ⟨hrotor, hout, ⟨hduty, hp, hduties⟩, hmag, hb, hhoming⟩

theorem Legal.cfg {s : State} {c : CfgRegs} (hi : 0 ≤ c.iMax.toInt) (hd : InUnit c.dutyInit) (hh : InUnit c.homeDuty)
    (h : Legal s) : Legal { s with cfg := c } := by
  obtain ⟨hrotor, hout, ⟨hduty, hprof, hpend, hpins, -, -⟩, ⟨hv, ht, -, hc⟩, hrest⟩ := h
  exact ⟨hrotor, hout, ⟨hduty, hprof, hpend, hpins, hd, hh⟩, ⟨hv, ht, hi, hc⟩, hrest⟩

/-! ### The budget invariant (R55) -/

theorem count_eq_zero_iff (rem : Count) : rem = 0 ↔ rem.toInt = 0 := by
  rw [← BitVec.toInt_inj]; rfl

/-- A counting step that does not reach zero keeps the sign and comes nearer to zero (R193). -/
theorem countStep_sign {rem : Count} (h : countStep rem ≠ 0) :
    Int.sign (countStep rem).toInt = Int.sign rem.toInt ∧ (countStep rem).toInt.natAbs ≤ rem.toInt.natAbs := by
  rw [Ne, count_eq_zero_iff, countStep_toInt] at h
  rw [countStep_toInt]
  rcases lt_trichotomy rem.toInt 0 with hn | h0 | hp
  · rw [Int.sign_eq_neg_one_of_neg hn] at h ⊢
    exact ⟨Int.sign_eq_neg_one_of_neg (by omega), by omega⟩
  · simp [h0] at h
  · rw [Int.sign_eq_one_of_pos hp] at h ⊢
    exact ⟨Int.sign_eq_one_of_pos (by omega), by omega⟩

theorem countStep_zero : countStep 0 = 0 := by decide

/-- Consuming the latch of a budget that is on keeps the budget invariant (R191, R194). -/
theorem BudgetLegal.counted {b : Budget} (p : NumWord) (hon : b.budgetOn = true) (h : BudgetLegal b) :
    BudgetLegal (counted b p) := by
  obtain ⟨hlive, hdone, -⟩ := h
  refine ⟨fun ⟨_, hd⟩ => ?_, fun hd => ⟨hon, ?_⟩, fun hoff => absurd (hon.symm.trans hoff) (by decide)⟩
  · obtain ⟨hne, hbd⟩ : countStep b.rem ≠ 0 ∧ b.done = false := by simpa [Machine.counted] using hd
    obtain ⟨-, hsign, habs⟩ := hlive ⟨hon, hbd⟩
    obtain ⟨hsign', habs'⟩ := countStep_sign hne
    exact ⟨hne, hsign'.trans hsign, habs'.trans habs⟩
  · by_cases hz : countStep b.rem = 0
    · exact hz
    · have hbd : b.done = true := by simpa only [Machine.counted, if_neg hz] using hd
      exact absurd (by rw [(hdone hbd).2, countStep_zero]) hz

/-- START loads a legal budget (R210). -/
theorem Legal.sessionStarted {s : State} (rot vel : NumWord) (h : Legal s) : Legal (sessionStarted rot vel s) := by
  obtain ⟨hrotor, hout, ⟨-, -, hpend, hpins, hinit, hhome⟩, ⟨hv, -, himax, -⟩, -, hhoming⟩ := h
  refine ⟨⟨.inr rfl, hrotor.2⟩, hout, ⟨hinit, ?_, hpend, hpins, hinit, hhome⟩, ⟨hv, numAbs_nonneg vel, himax, Nat.zero_le _⟩, ?_, hhoming⟩
  · show InUnit 0x00010000
    decide
  · refine ⟨fun ⟨hon, _⟩ => ⟨by simpa [Machine.sessionStarted] using hon, rfl, le_rfl⟩, fun hd => ?_, fun hoff => ?_⟩
    · simp [Machine.sessionStarted] at hd
    · exact ⟨by simpa [Machine.sessionStarted] using hoff, rfl, rfl⟩

/-! ### Every operation keeps a legal state legal -/

section
variable {s t : State}

theorem execBudget_keeps_legal {a : RotorState} (h : Legal s) (ht : execBudget a s = .next t) : Legal t := by
  obtain ⟨b, hb, hcase⟩ := execBudget_cases a s
  obtain rfl := next_unique hb ht
  obtain ⟨-, -, ⟨-, hprof, -⟩, -, hbudget, -⟩ := id h
  obtain rfl | ⟨-, -, -, rfl⟩ | ⟨hon, -, -, p, hp, rfl⟩ := hcase
  · exact h
  · exact h.budget hbudget hprof
  · exact h.budget (hbudget.counted p hon) hp

theorem execRefvisit_keeps_legal (h : Legal s) (ht : execRefvisit s = .next t) : Legal t := by
  obtain ⟨u, hu, hcase⟩ := refVisitWith_cases Config.pidLatency s
  obtain rfl := next_unique hu ht
  obtain ⟨-, -, -, ⟨hv, -, -, hc⟩, -⟩ := id h
  obtain ⟨-, rfl⟩ | ⟨-, -, rfl⟩ | ⟨-, -, -, rfl⟩ | ⟨-, -, -, v, -, hv', rfl⟩ := hcase
  · exact h.est hv hc
  · exact h.raise _
  · exact h.est hv hc
  · refine h.est hv' ?_
    dsimp only
    split
    · exact hc
    · exact le_rfl

theorem execBookkeep_keeps_legal {st : RotorState} (h : Legal s) (ht : execBookkeep st s = .next t) : Legal t := by
  obtain ⟨u, v, hv, hu, hb⟩ := execBookkeep_cases st s
  obtain rfl := next_unique hv ht
  refine execBudget_keeps_legal ?_ hb
  split at hu
  · exact execRefvisit_keeps_legal h hu
  · exact hu ▸ h

theorem execPid_keeps_legal (h : Legal s) (ht : execPid s = .next t) : Legal t := by
  obtain ⟨p, f, hp, htarget, hduty⟩ := execPid_frame s
  obtain rfl := next_unique hp ht
  obtain ⟨-, -, -, ⟨-, hmag, -⟩, -⟩ := id h
  exact h.pid (htarget ▸ hmag) hduty

theorem execPidstep_keeps_legal (h : Legal s) (ht : execPidstep s = .next t) : Legal t := by
  obtain ⟨-, -, -, ⟨hv, -, -, hc⟩, -⟩ := id h
  obtain ⟨hne, hp⟩ | ⟨-, p, f, hpid, -, -, hp⟩ := execPidstep_cases s
  · have h0 : s.est.pidCnt = 0 := BitVec.eq_of_toNat_eq (Nat.le_zero.mp hc)
    exact absurd h0 hne
  · obtain rfl := next_unique hp ht
    exact (execPid_keeps_legal h hpid).est hv hc

theorem execEdge_keeps_legal (h : Legal s) (ht : execEdge s = .next t) : Legal t := by
  obtain ⟨-, he⟩ | ⟨-, -, -, he⟩ | ⟨-, -, -, -, he⟩ | ⟨-, -, hv, -, -, he⟩ := execEdge_cases s
  · exact next_unique he ht ▸ h.tracked
  · exact next_unique he ht ▸ h.tracked.raise _
  · exact next_unique he ht ▸ h.tracked
  · exact execBookkeep_keeps_legal (h.tracked.commutateTo (decodeSample_state_le hv)) (he ▸ ht)

theorem execHoming_keeps_legal (h : Legal s) (ht : execHoming s = .next t) : Legal t := by
  obtain ⟨⟨-, hoff⟩, -, -, -, -, hhoming⟩ := id h
  obtain ⟨-, he⟩ | ⟨-, hv, he⟩ | ⟨-, -, he⟩ := execHoming_cases s
  · exact next_unique he ht ▸ h.align hoff hhoming
  · exact next_unique he ht ▸ h.align (decodeSample_state_le hv) nofun
  · exact next_unique he ht ▸ (h.align (a := { s.align with homing := false, homeFail := true }) hoff nofun).raise _

theorem execHome_keeps_legal (h : Legal s) (ht : execHome s = .next t) : Legal t := by
  obtain ⟨⟨-, hoff⟩, -, ⟨-, -, -, -, -, hhome⟩, -⟩ := id h
  have halign : Legal { s with align :=
      { s.align with homing := true, homed := false, homeFail := false, settleCnt := s.cfg.settle } } :=
    h.align hoff fun _ => rfl
  exact next_unique rfl ht ▸ (halign.rotorPrev (.inr rfl)).driveLegs 0 hhome

theorem Legal.kickFrom (hall : Sample) (h : Legal s) : Legal (kickFrom hall s) := by
  obtain ⟨hv, hk⟩ | ⟨-, hk⟩ := kickFrom_cases hall s
  · exact hk ▸ h.commutateTo (decodeSample_state_le hv)
  · exact hk ▸ h.raise _

theorem execStart_keeps_legal {rot vel : NumWord} (h : Legal s) (ht : execStart rot vel s = .next t) : Legal t := by
  obtain rfl := next_unique (startWith_eq _ rot vel s) ht
  split
  · exact (h.sessionStarted rot vel).kickFrom _
  · exact h.sessionStarted rot vel

/-- The write normalises what the invariants bound: `I_MAX` and the two duties (R46). -/
theorem Legal.cfgWrite (r : CfgReg) (v : Word) (h : Legal s) : Legal { s with cfg := cfgWrite r v s.cfg } := by
  obtain ⟨-, -, ⟨-, -, -, -, hinit, hhome⟩, ⟨-, -, himax, -⟩, -⟩ := id h
  cases r with
  | iMax => exact h.cfg (numAbs_nonneg v) hinit hhome
  | dutyInit => exact h.cfg himax (clamp01_inUnit v) hhome
  | homeDuty => exact h.cfg himax hinit (clamp01_inUnit v)
  | kp | ki | kd | leadMag | decelWin | settle => exact h.cfg himax hinit hhome

theorem execWrcfg_keeps_legal {i : CfgIndex} {v : Word} (h : Legal s) (ht : execWrcfg i v s = .next t) : Legal t := by
  cases i with
  | reg r => exact next_unique rfl ht ▸ h.cfgWrite r v
  | reserved code => exact next_unique rfl ht ▸ h.raise _

theorem execProfile_keeps_legal (h : Legal s) (ht : execProfile s = .next t) : Legal t := by
  obtain ⟨p, hp, -⟩ := profileOf_some s.budget
  rw [execProfile, hp] at ht
  exact next_unique rfl ht ▸ h

theorem malformedOpcode_keeps_legal (h : Legal s) (ht : malformedOpcode s = .next t) : Legal t :=
  next_unique rfl ht ▸ h.raise _

theorem legal_reset : Legal State.reset := by decide

/-- Every command keeps a legal state legal, whatever its operands. -/
theorem exec_command_keeps_legal (c : Command) (h : Legal s) (ht : exec c.toInstr s = .next t) : Legal t := by
  cases c with
  | nop => exact next_unique rfl ht ▸ h
  | home => exact execHome_keeps_legal h ht
  | start rot vel => exact execStart_keeps_legal h ht
  | wrcfg i v => exact execWrcfg_keeps_legal h ht
  | clrf m => exact next_unique rfl ht ▸ h
  | rsv5 | rsv6 | rsv7 => exact malformedOpcode_keeps_legal h ht

/-- Every operation on operands the spec gives it keeps a legal state legal. -/
theorem exec_keeps_legal {i : Instr} (hi : WellFormed i = true) (h : Legal s) (ht : exec i s = .next t) : Legal t := by
  cases i with
  | nop => exact exec_command_keeps_legal .nop h ht
  | home => exact exec_command_keeps_legal .home h ht
  | start rot vel => exact exec_command_keeps_legal (.start rot vel) h ht
  | wrcfg i v => exact exec_command_keeps_legal (.wrcfg i v) h ht
  | clrf m => exact exec_command_keeps_legal (.clrf m) h ht
  | rsv5 => exact exec_command_keeps_legal .rsv5 h ht
  | rsv6 => exact exec_command_keeps_legal .rsv6 h ht
  | rsv7 => exact exec_command_keeps_legal .rsv7 h ht
  | reset => exact next_unique rfl ht ▸ legal_reset
  | oncommit => exact next_unique rfl ht ▸ h.turnOn
  | homing => exact execHoming_keeps_legal h ht
  | edge => exact execEdge_keeps_legal h ht
  | pidstep => exact execPidstep_keeps_legal h ht
  | cmd => exact exec_command_keeps_legal _ h ((execCmd_eq s).symm.trans ht)
  | tick => exact next_unique rfl ht ▸ h
  | decode raw => exact next_unique rfl ht ▸ h
  | drive d u => exact next_unique rfl ht ▸ h.driveLegs d (inUnit_of_dutyOk hi)
  | commutate st => exact next_unique rfl ht ▸ h.commutateTo (by simpa [WellFormed, rotorStateOk] using hi)
  | bookkeep st => exact execBookkeep_keeps_legal h ht
  | refvisit => exact execRefvisit_keeps_legal h ht
  | pid => exact execPid_keeps_legal h ht
  | budget a => exact execBudget_keeps_legal h ht
  | profile => exact execProfile_keeps_legal h ht

/-! ### Every step keeps a legal state legal -/

theorem phase_keeps_legal {c : Bool} {i : Instr} (hi : WellFormed i = true) (h : Legal s) (ht : phase c i s = .next t) :
    Legal t := by
  obtain ⟨-, he⟩ | ⟨-, rfl⟩ := phase_eq_next.mp ht
  · exact exec_keeps_legal hi h he
  · exact h

theorem cycle_keeps_legal (h : Legal s) (ht : cycle s = .next t) : Legal t := by
  cases hr : s.env.pins.rst with
  | true => exact next_unique (cycle_of_rst hr) ht ▸ legal_reset
  | false =>
    obtain ⟨s1, s2, s3, s4, s5, h1, h2, h3, h4, h5, rfl⟩ := (cycle_eq_next hr).mp ht
    have hs2 := phase_keeps_legal rfl (phase_keeps_legal rfl h h1) h2
    have hs4 := phase_keeps_legal rfl (phase_keeps_legal rfl hs2 h3) h4
    exact phase_keeps_legal (t := s5) rfl hs4 h5

theorem step_keeps_legal (h : Legal s) (ht : step s = .next t) : Legal t := cycle_keeps_legal h.present ht

end

/-- Settles O51: one lemma per operation, each from what its shared updates keep. -/
theorem everyOperationKeepsLegal : Obligations.EveryOperationKeepsLegal := fun _ _ _ hi h ht => exec_keeps_legal hi h ht

/-- Settles O52: a step is a RESET or phases that are well-formed operations. -/
theorem stepKeepsLegal : Obligations.StepKeepsLegal := fun _ _ h ht => step_keeps_legal h ht

/-- Settles O50. -/
theorem resetStateIsLegal : Obligations.ResetStateIsLegal := legal_reset

/-- Settles O10: a driver shows the shared duty or 0, and no leg has both drivers on. -/
theorem pinDutiesAreSafe : Obligations.PinDutiesAreSafe := by
  intro s ⟨_, ⟨⟨h0, h2, h4⟩, _⟩, ⟨_, _, _, hpins, _⟩, _⟩
  have off_of_not_both : ∀ j k : Fin 6, ¬((drvOn s).getLsbD j = true ∧ (drvOn s).getLsbD k = true) →
      drvDuty s j = 0 ∨ drvDuty s k = 0 := by
    intro j k h
    by_cases hj : (drvOn s).getLsbD j = true
    · exact .inr (if_neg fun hk => h ⟨hj, hk⟩)
    · exact .inl (if_neg hj)
  refine ⟨fun j => ⟨?_, fun h => if_neg (by simpa [drvOn] using h), fun h => if_pos h⟩,
    off_of_not_both 0 1 h0, off_of_not_both 2 3 h2, off_of_not_both 4 5 h4⟩
  unfold drvDuty
  split
  · exact hpins
  · exact ⟨le_rfl, by decide⟩

end Sys2Proof.Machine
end

section
/-! Nothing reads a flag (R29, R242): every operation, run on two states that differ in their flags only, completes on both with
states that differ in their flags only. -/
namespace Sys2Proof.Machine

/-- Both runs complete, in states that are equal but for the flags. -/
def AgreeButFlags (r r' : Result) : Prop := ∃ t f, r = .next t ∧ r' = .next { t with flags := f }

/-- The operation reads no flag, and completes. -/
def FlagBlind (op : State → Result) : Prop := ∀ (s : State) (f : BitVec 4), AgreeButFlags (op s) (op { s with flags := f })

/-! ### How operations that read no flag are put together -/

theorem AgreeButFlags.ite {c : Prop} [Decidable c] {a a' b b' : Result} (ha : c → AgreeButFlags a a')
    (hb : ¬c → AgreeButFlags b b') : AgreeButFlags (if c then a else b) (if c then a' else b') := by
  by_cases h : c
  · simpa only [if_pos h] using ha h
  · simpa only [if_neg h] using hb h

theorem AgreeButFlags.andThen {r r' : Result} {g : State → Result} (hr : AgreeButFlags r r') (hg : FlagBlind g) :
    AgreeButFlags (andThen r g) (andThen r' g) := by
  obtain ⟨t, f, rfl, rfl⟩ := hr
  exact hg t f

theorem AgreeButFlags.withQuotient {q : Option NumWord} {g g' : NumWord → Result} (hq : ∃ v, q = some v)
    (hg : ∀ v, AgreeButFlags (g v) (g' v)) : AgreeButFlags (withQuotient q g) (withQuotient q g') := by
  obtain ⟨v, rfl⟩ := hq
  exact hg v

theorem flagBlind_next : FlagBlind .next := fun s f => ⟨s, f, rfl, rfl⟩

/-! ### Every operation -/

theorem execBudget_flagBlind (a : RotorState) : FlagBlind (execBudget a) := fun s f =>
  .ite (fun _ => flagBlind_next s f) fun _ =>
    .ite (fun _ => ⟨_, f, rfl, rfl⟩) fun _ =>
      .ite (fun _ => .withQuotient ((profileOf_some _).imp fun _ h => h.1) fun _ => ⟨_, f, rfl, rfl⟩)
        fun _ => flagBlind_next s f

theorem execProfile_flagBlind : FlagBlind execProfile := fun s f =>
  .withQuotient ((profileOf_some s.budget).imp fun _ h => h.1) fun _ => ⟨_, f, rfl, rfl⟩

theorem execRefvisit_flagBlind : FlagBlind execRefvisit := fun _ f =>
  .ite (fun _ => ⟨_, f, rfl, rfl⟩) fun _ =>
    .ite (fun _ => ⟨_, _, rfl, rfl⟩) fun h0 =>
      .ite (fun _ => ⟨_, _, rfl, rfl⟩) fun _ =>
        .withQuotient ⟨_, recip_of_ne_zero h0⟩ fun _ => ⟨_, f, rfl, rfl⟩

theorem execBookkeep_flagBlind (st : RotorState) : FlagBlind (execBookkeep st) := fun s f =>
  .andThen (.ite (fun _ => execRefvisit_flagBlind s f) fun _ => flagBlind_next s f) (execBudget_flagBlind _)

theorem execPid_flagBlind : FlagBlind execPid := fun _ f =>
  .ite (fun _ => ⟨_, _, rfl, rfl⟩) fun h0 => .withQuotient ⟨_, numDiv_of_ne_zero h0⟩ fun _ => ⟨_, f, rfl, rfl⟩

theorem execPidstep_flagBlind : FlagBlind execPidstep := fun s f =>
  .ite (fun _ => .andThen (execPid_flagBlind s f) fun _ g => ⟨_, g, rfl, rfl⟩) fun _ => ⟨_, f, rfl, rfl⟩

theorem execEdge_flagBlind : FlagBlind execEdge := fun s f =>
  .ite (fun _ => ⟨_, f, rfl, rfl⟩) fun _ =>
    .ite (fun _ => ⟨_, _, rfl, rfl⟩) fun _ =>
      .ite (fun _ => ⟨_, f, rfl, rfl⟩) fun _ =>
        .ite (fun _ => ⟨_, f, rfl, rfl⟩) fun _ => execBookkeep_flagBlind _ (commutateTo _ (tracked s)) f

theorem execHoming_flagBlind : FlagBlind execHoming := fun _ f =>
  .ite (fun _ => ⟨_, f, rfl, rfl⟩) fun _ => .ite (fun _ => ⟨_, f, rfl, rfl⟩) fun _ => ⟨_, _, rfl, rfl⟩

theorem kickFrom_flags (hall : Sample) (s : State) (f : BitVec 4) :
    ∃ g, kickFrom hall { s with flags := f } = { kickFrom hall s with flags := g } := by
  obtain ⟨hv, hk⟩ | ⟨hv, hk⟩ := kickFrom_cases hall s
  · exact ⟨f, by rw [hk, kickFrom, if_pos hv]; rfl⟩
  · exact ⟨_, by rw [hk, kickFrom, if_neg (by rw [hv]; decide)]; rfl⟩

theorem execStart_flagBlind (rot vel : NumWord) : FlagBlind (execStart rot vel) := fun s f =>
  .withQuotient ⟨_, profileOf_loadSession rot vel s⟩ fun p =>
    .ite (fun _ => by
      obtain ⟨g, hg⟩ := kickFrom_flags s.env.pins.hall
        { loadSession rot vel s with budget := { (loadSession rot vel s).budget with prof := p } } f
      exact ⟨_, g, rfl, congrArg _ hg⟩)
      fun _ => ⟨_, f, rfl, rfl⟩

theorem execWrcfg_flagBlind (i : CfgIndex) (v : Word) : FlagBlind (execWrcfg i v) := by
  cases i with
  | reg r => exact fun s f => ⟨_, f, rfl, rfl⟩
  | reserved code => exact fun s f => ⟨_, _, rfl, rfl⟩

theorem malformedOpcode_flagBlind : FlagBlind malformedOpcode := fun _ _ => ⟨_, _, rfl, rfl⟩

theorem exec_command_flagBlind (c : Command) : FlagBlind (exec c.toInstr) := by
  cases c with
  | nop => exact flagBlind_next
  | home => exact fun s f => ⟨_, f, rfl, rfl⟩
  | start rot vel => exact execStart_flagBlind rot vel
  | wrcfg i v => exact execWrcfg_flagBlind i v
  | clrf m => exact fun s f => ⟨_, _, rfl, rfl⟩
  | rsv5 | rsv6 | rsv7 => exact malformedOpcode_flagBlind

theorem exec_flagBlind (i : Instr) : FlagBlind (exec i) := by
  cases i with
  | nop => exact exec_command_flagBlind .nop
  | home => exact exec_command_flagBlind .home
  | start rot vel => exact exec_command_flagBlind (.start rot vel)
  | wrcfg i v => exact exec_command_flagBlind (.wrcfg i v)
  | clrf m => exact exec_command_flagBlind (.clrf m)
  | rsv5 => exact exec_command_flagBlind .rsv5
  | rsv6 => exact exec_command_flagBlind .rsv6
  | rsv7 => exact exec_command_flagBlind .rsv7
  | reset => exact fun s f => ⟨_, 0, rfl, rfl⟩
  | oncommit => exact fun s f => ⟨_, f, rfl, rfl⟩
  | homing => exact execHoming_flagBlind
  | edge => exact execEdge_flagBlind
  | pidstep => exact execPidstep_flagBlind
  | cmd =>
    intro s f
    show AgreeButFlags (execCmd s) (execCmd { s with flags := f })
    rw [execCmd_eq, execCmd_eq]
    exact exec_command_flagBlind _ s f
  | tick => exact fun s f => ⟨_, f, rfl, rfl⟩
  | decode raw => exact fun s f => ⟨_, f, rfl, rfl⟩
  | drive d u => exact fun s f => ⟨_, f, rfl, rfl⟩
  | commutate st => exact fun s f => ⟨_, f, rfl, rfl⟩
  | bookkeep st => exact execBookkeep_flagBlind st
  | refvisit => exact execRefvisit_flagBlind
  | pid => exact execPid_flagBlind
  | budget a => exact execBudget_flagBlind a
  | profile => exact execProfile_flagBlind

/-- Every operation completes, on every operand and in every state (R115). -/
theorem exec_total (i : Instr) (s : State) : ∃ t, exec i s = .next t := by
  obtain ⟨t, -, h, -⟩ := exec_flagBlind i s s.flags
  exact ⟨t, h⟩

/-! ### The cycle and the step -/

theorem phase_flagBlind (c : Bool) (i : Instr) : FlagBlind (phase c i) := fun s f =>
  .ite (fun _ => exec_flagBlind i s f) fun _ => flagBlind_next s f

theorem earlyPhases_flagBlind : FlagBlind earlyPhases := fun s f =>
  .andThen (phase_flagBlind _ _ s f) fun s1 f1 =>
    .andThen (phase_flagBlind _ _ s1 f1) fun s2 f2 =>
      .andThen (phase_flagBlind _ _ s2 f2) fun s3 f3 => phase_flagBlind _ _ s3 f3

theorem cycle_flagBlind : FlagBlind cycle := fun s f =>
  .ite (fun _ => exec_flagBlind .reset s f) fun _ =>
    .andThen (earlyPhases_flagBlind s f) fun s4 f4 =>
      .andThen (phase_flagBlind _ _ s4 f4) (exec_flagBlind .tick)

theorem present_flags_update (s : State) (f : BitVec 4) : present { s with flags := f } = { present s with flags := f } := by
  unfold present
  dsimp only
  cases s.env.script <;> rfl

theorem step_flagBlind : FlagBlind step := by
  intro s f
  show AgreeButFlags (cycle (present s)) (cycle (present { s with flags := f }))
  rw [present_flags_update s f]
  exact cycle_flagBlind (present s) f

/-- Settles O54: the step is built from operations that read no flag. -/
theorem flagsAreNeverRead : Obligations.FlagsAreNeverRead := step_flagBlind

end Sys2Proof.Machine
end

section
/-! What the phases P1 to P4 and the commands can change, and from it what a step can change: the configuration, the session
constants, the drive state, the flags, the alignment and the mode. -/
namespace Sys2Proof.Machine

/-! ### What the phases before the command leave unchanged -/

/-- From `b` to `b'` only counting can have happened: the session's constants stand, a budget that is done stands still, and one
becomes done only at zero (R191, R194). -/
structure BudgetFrame (b b' : Budget) : Prop where
  targetCnt : b'.targetCnt = b.targetCnt
  win : b'.win = b.win
  budgetOn : b'.budgetOn = b.budgetOn
  of_done : b.done = true → b' = b
  becomes_done : b.done = false → b'.done = true → b.budgetOn = true ∧ b'.rem = 0

theorem BudgetFrame.refl (b : Budget) : BudgetFrame b b where
  targetCnt := rfl
  win := rfl
  budgetOn := rfl
  of_done _ := rfl
  becomes_done h h' := absurd (h.symm.trans h') (by decide)

theorem BudgetFrame.trans {a b c : Budget} (h : BudgetFrame a b) (h' : BudgetFrame b c) : BudgetFrame a c where
  targetCnt := h'.targetCnt.trans h.targetCnt
  win := h'.win.trans h.win
  budgetOn := h'.budgetOn.trans h.budgetOn
  of_done hd := by
    obtain rfl := h.of_done hd
    exact h'.of_done hd
  becomes_done ha hc := by
    cases hb : b.done with
    | true =>
      obtain rfl := h'.of_done hb
      exact h.becomes_done ha hb
    | false =>
      obtain ⟨hon, hrem⟩ := h'.becomes_done hb hc
      exact ⟨h.budgetOn ▸ hon, hrem⟩

/-- Every flag set in `f` is set in `f'` (R29). -/
def FlagsKept (f f' : BitVec 4) : Prop := ∀ j, f.getLsbD j = true → f'.getLsbD j = true

theorem flagsKept_setFlag (f : BitVec 4) (k : ErrorKind) : FlagsKept f (setFlag f k) := by
  intro j h
  rw [setFlag, BitVec.getLsbD_or, h, Bool.true_or]

/-- What holds between a state and a state that the phases P1 to P4 make of it. -/
structure PhaseFrame (s t : State) : Prop where
  dir : t.dir = s.dir
  cfg : t.cfg = s.cfg
  env : t.env = s.env
  targetMag : t.pid.targetMag = s.pid.targetMag
  budget : BudgetFrame s.budget t.budget
  flags : FlagsKept s.flags t.flags
  driveState : t.driveState = s.driveState ∨ t.driveState.toNat ≤ 5

theorem PhaseFrame.refl (s : State) : PhaseFrame s s where
  dir := rfl
  cfg := rfl
  env := rfl
  targetMag := rfl
  budget := .refl _
  flags _ := id
  driveState := .inl rfl

theorem PhaseFrame.trans {s t u : State} (h : PhaseFrame s t) (h' : PhaseFrame t u) : PhaseFrame s u where
  dir := h'.dir.trans h.dir
  cfg := h'.cfg.trans h.cfg
  env := h'.env.trans h.env
  targetMag := h'.targetMag.trans h.targetMag
  budget := h.budget.trans h'.budget
  flags j hj := h'.flags j (h.flags j hj)
  driveState := by
    rcases h'.driveState with he | hle
    · rw [he]; exact h.driveState
    · exact .inr hle

theorem PhaseFrame.raise (k : ErrorKind) (s : State) : PhaseFrame s (raise k s) :=
  { PhaseFrame.refl s with flags := flagsKept_setFlag s.flags k }

theorem PhaseFrame.commutateTo (st : RotorState) (s : State) : PhaseFrame s (commutateTo st s) :=
  { PhaseFrame.refl s with driveState := .inr (commandedState_le s st) }

theorem PhaseFrame.turnOn (s : State) : PhaseFrame s (turnOn s) := { PhaseFrame.refl s with }

theorem PhaseFrame.tracked (s : State) : PhaseFrame s (tracked s) := { PhaseFrame.refl s with }

theorem PhaseFrame.kickFrom (hall : Sample) (s : State) : PhaseFrame s (kickFrom hall s) := by
  obtain ⟨-, hk⟩ | ⟨-, hk⟩ := kickFrom_cases hall s
  · exact hk ▸ .commutateTo _ s
  · exact hk ▸ .raise _ s

theorem kickFrom_align (hall : Sample) (s : State) : (kickFrom hall s).align = s.align := by
  obtain ⟨-, hk⟩ | ⟨-, hk⟩ := kickFrom_cases hall s <;> rw [hk] <;> rfl

theorem kickFrom_budget (hall : Sample) (s : State) : (kickFrom hall s).budget = s.budget := by
  obtain ⟨-, hk⟩ | ⟨-, hk⟩ := kickFrom_cases hall s <;> rw [hk] <;> rfl

section
variable {s t : State}

theorem budgetFrame_counted {b : Budget} (p : NumWord) (hon : b.budgetOn = true) (hd : b.done = false) :
    BudgetFrame b (counted b p) where
  targetCnt := rfl
  win := rfl
  budgetOn := rfl
  of_done h := absurd (hd.symm.trans h) (by decide)
  becomes_done _ h := by
    refine ⟨hon, by_contra fun hne : countStep b.rem ≠ 0 => ?_⟩
    rw [counted, if_neg hne, hd] at h
    cases h

theorem execBudget_phaseFrame {a : RotorState} (hd : s.budget.done = false) (ht : execBudget a s = .next t) :
    PhaseFrame s t ∧ t.align = s.align := by
  obtain ⟨b, hb, hcase⟩ := execBudget_cases a s
  obtain rfl := next_unique hb ht
  refine ⟨{ PhaseFrame.refl s with budget := ?_ }, rfl⟩
  obtain rfl | ⟨-, -, -, rfl⟩ | ⟨hon, -, -, p, -, rfl⟩ := hcase
  · exact .refl _
  · exact { BudgetFrame.refl s.budget with of_done := fun h => absurd (hd.symm.trans h) (by decide) }
  · exact budgetFrame_counted p hon hd

/-- REFVISIT writes the estimator alone, and sets at most a flag. -/
theorem execRefvisit_keeps_flags (ht : execRefvisit s = .next t) :
    ∃ e f, t = { s with est := e, flags := f } ∧ FlagsKept s.flags f := by
  obtain ⟨u, hu, hcase⟩ := refVisitWith_cases Config.pidLatency s
  obtain rfl := next_unique hu ht
  obtain ⟨-, rfl⟩ | ⟨-, -, rfl⟩ | ⟨-, -, -, rfl⟩ | ⟨-, -, -, v, -, -, rfl⟩ := hcase
  · exact ⟨_, _, rfl, fun _ => id⟩
  · exact ⟨_, _, rfl, flagsKept_setFlag _ _⟩
  · exact ⟨_, _, rfl, flagsKept_setFlag _ _⟩
  · exact ⟨_, _, rfl, fun _ => id⟩

theorem execBookkeep_phaseFrame {st : RotorState} (hd : s.budget.done = false) (ht : execBookkeep st s = .next t) :
    PhaseFrame s t ∧ t.align = s.align := by
  obtain ⟨u, v, hv, hu, hb⟩ := execBookkeep_cases st s
  obtain rfl := next_unique hv ht
  split at hu
  · obtain ⟨e, f, rfl, hf⟩ := execRefvisit_keeps_flags hu
    obtain ⟨hframe, halign⟩ := execBudget_phaseFrame (by exact hd) hb
    exact ⟨.trans (t := { s with est := e, flags := f }) { PhaseFrame.refl s with flags := hf } hframe, halign⟩
  · exact execBudget_phaseFrame hd (hu ▸ hb)

theorem execEdge_phaseFrame (ht : execEdge s = .next t) : PhaseFrame s t ∧ t.align = s.align := by
  obtain ⟨-, he⟩ | ⟨-, -, -, he⟩ | ⟨-, -, -, -, he⟩ | ⟨-, -, -, -, hd, he⟩ := execEdge_cases s
  · exact next_unique he ht ▸ ⟨.tracked s, rfl⟩
  · exact next_unique he ht ▸ ⟨(PhaseFrame.tracked s).trans (.raise _ _), rfl⟩
  · exact next_unique he ht ▸ ⟨.tracked s, rfl⟩
  · obtain ⟨hframe, halign⟩ := execBookkeep_phaseFrame (by exact hd) (he ▸ ht)
    exact ⟨((PhaseFrame.tracked s).trans (.commutateTo _ _)).trans hframe, halign⟩

theorem execPid_keeps_flags (ht : execPid s = .next t) : FlagsKept s.flags t.flags := by
  obtain ⟨-, hp⟩ | ⟨-, d, -, hp⟩ := execPid_cases s
  · exact next_unique hp ht ▸ flagsKept_setFlag _ _
  · exact next_unique hp ht ▸ fun _ => id

theorem execPidstep_phaseFrame (ht : execPidstep s = .next t) : PhaseFrame s t ∧ t.align = s.align := by
  obtain ⟨-, hp⟩ | ⟨-, p, f, hpid, htarget, -, hp⟩ := execPidstep_cases s
  · exact next_unique hp ht ▸ ⟨{ PhaseFrame.refl s with }, rfl⟩
  · obtain rfl := next_unique hp ht
    have hflags : FlagsKept s.flags f := execPid_keeps_flags hpid
    exact ⟨{ PhaseFrame.refl s with targetMag := htarget, flags := hflags }, rfl⟩

theorem execHoming_phaseFrame (ht : execHoming s = .next t) : PhaseFrame s t := by
  obtain ⟨-, hh⟩ | ⟨-, -, hh⟩ | ⟨-, -, hh⟩ := execHoming_cases s
  · exact next_unique hh ht ▸ { PhaseFrame.refl s with }
  · exact next_unique hh ht ▸ { PhaseFrame.refl s with }
  · exact next_unique hh ht ▸ { PhaseFrame.refl s with flags := flagsKept_setFlag _ _ }

/-- What a phase guarantees, if its operation does and doing nothing does. -/
theorem phase_rel {R : State → State → Prop} {c : Bool} {i : Instr} (ht : phase c i s = .next t)
    (hrefl : R s s) (hexec : exec i s = .next t → R s t) : R s t := by
  obtain ⟨-, he⟩ | ⟨-, rfl⟩ := phase_eq_next.mp ht
  · exact hexec he
  · exact hrefl

/-- The alignment after P2 on the sample `hall`, from the alignment `a` (R148 to R150). -/
inductive AlignOutcome (hall : Sample) (a : Alignment) : Alignment → Prop where
  | idle (h : a.homing = false) : AlignOutcome hall a a
  | settling (h : a.homing = true) (hc : a.settleCnt ≠ 0) : AlignOutcome hall a { a with settleCnt := a.settleCnt - 1 }
  | captured (h : a.homing = true) (hc : a.settleCnt = 0) (hv : (decodeSample hall).valid = true) :
      AlignOutcome hall a { a with homing := false, alignOff := (decodeSample hall).state, homed := true }
  | failed (h : a.homing = true) (hc : a.settleCnt = 0) (hv : (decodeSample hall).valid = false) :
      AlignOutcome hall a { a with homing := false, homeFail := true }

theorem homingPhase_align (ht : phase s.align.homing .homing s = .next t) :
    AlignOutcome s.env.pins.hall s.align t.align := by
  obtain ⟨hon, he⟩ | ⟨hoff, rfl⟩ := phase_eq_next.mp ht
  · obtain ⟨hc, hh⟩ | ⟨hc, hv, hh⟩ | ⟨hc, hv, hh⟩ := execHoming_cases s
    · exact next_unique hh he ▸ .settling hon hc
    · exact next_unique hh he ▸ .captured hon hc hv
    · exact next_unique hh he ▸ .failed hon hc hv
  · exact .idle hoff

/-- P1 to P4 keep what the frame names, and P2 alone moves the alignment. -/
theorem earlyPhases_frame (ht : earlyPhases s = .next t) :
    PhaseFrame s t ∧ AlignOutcome s.env.pins.hall s.align t.align := by
  simp only [earlyPhases, andThen_eq_next] at ht
  obtain ⟨s1, h1, s2, h2, s3, h3, h4⟩ := ht
  obtain ⟨frame1, align1, env1⟩ : PhaseFrame s s1 ∧ s1.align = s.align ∧ s1.env = s.env :=
    phase_rel (R := fun s t => PhaseFrame s t ∧ t.align = s.align ∧ t.env = s.env) h1 ⟨.refl s, rfl, rfl⟩
      fun h => next_unique rfl h ▸ ⟨.turnOn s, rfl, rfl⟩
  have frame2 : PhaseFrame s1 s2 := phase_rel h2 (.refl s1) execHoming_phaseFrame
  obtain ⟨frame3, align3⟩ : PhaseFrame s2 s3 ∧ s3.align = s2.align :=
    phase_rel (R := fun s t => PhaseFrame s t ∧ t.align = s.align) h3 ⟨.refl s2, rfl⟩ execEdge_phaseFrame
  obtain ⟨frame4, align4⟩ : PhaseFrame s3 t ∧ t.align = s3.align :=
    phase_rel (R := fun s t => PhaseFrame s t ∧ t.align = s.align) h4 ⟨.refl s3, rfl⟩ execPidstep_phaseFrame
  refine ⟨((frame1.trans frame2).trans frame3).trans frame4, ?_⟩
  rw [align4, align3, ← align1, ← env1]
  exact homingPhase_align h2

/-! ### What a command can change -/

/-- START loads the session, and the kick after it is a commutation or a flag (R210, R212). -/
theorem execStart_phaseFrame {rot vel : NumWord} (ht : execStart rot vel s = .next t) :
    PhaseFrame (sessionStarted rot vel s) t ∧ t.align = s.align ∧ t.budget = (sessionStarted rot vel s).budget := by
  obtain rfl := next_unique (startWith_eq _ rot vel s) ht
  split
  · exact ⟨.kickFrom _ _, kickFrom_align _ _, kickFrom_budget _ _⟩
  · exact ⟨.refl _, rfl, rfl⟩

/-- A command moves the configuration only where it is a WRCFG to a register (R46, R63). -/
theorem exec_command_cfg (c : Command) (ht : exec c.toInstr s = .next t) :
    t.cfg = s.cfg ∨ ∃ r v, c = .wrcfg (.reg r) v ∧ t.cfg = cfgWrite r v s.cfg := by
  cases c with
  | wrcfg i v =>
    cases i with
    | reg r => exact next_unique rfl ht ▸ .inr ⟨r, v, rfl, rfl⟩
    | reserved code => exact next_unique rfl ht ▸ .inl rfl
  | start rot vel => exact .inl (execStart_phaseFrame ht).1.cfg
  | nop | home | clrf | rsv5 | rsv6 | rsv7 => exact next_unique rfl ht ▸ .inl rfl

/-- A command moves the session only where it is a START (R210). -/
theorem exec_command_session (c : Command) (ht : exec c.toInstr s = .next t) :
    (t.dir = s.dir ∧ t.pid = s.pid ∧ t.budget = s.budget) ∨
    ∃ rot vel, c = .start rot vel ∧ t.align = s.align ∧ t.budget.done = false := by
  cases c with
  | wrcfg i v => cases i <;> exact next_unique rfl ht ▸ .inl ⟨rfl, rfl, rfl⟩
  | start rot vel =>
    obtain ⟨-, halign, hbudget⟩ := execStart_phaseFrame ht
    exact .inr ⟨rot, vel, rfl, halign, by rw [hbudget]; rfl⟩
  | nop | home | clrf | rsv5 | rsv6 | rsv7 => exact next_unique rfl ht ▸ .inl ⟨rfl, rfl, rfl⟩

/-- A command moves the alignment only where it is a HOME, which leaves `align_off` (R207). -/
theorem exec_command_align (c : Command) (ht : exec c.toInstr s = .next t) :
    t.align = s.align ∨ (c = .home ∧ t.align.homing = true ∧ t.align.alignOff = s.align.alignOff) := by
  cases c with
  | home => exact next_unique rfl ht ▸ .inr ⟨rfl, rfl, rfl⟩
  | wrcfg i v => cases i <;> exact next_unique rfl ht ▸ .inl rfl
  | start rot vel => exact .inl (execStart_phaseFrame ht).2.1
  | nop | clrf | rsv5 | rsv6 | rsv7 => exact next_unique rfl ht ▸ .inl rfl

/-- A command commands a drive state in 0 to 5, or none (R52). -/
theorem exec_command_driveState (c : Command) (ht : exec c.toInstr s = .next t) :
    t.driveState = s.driveState ∨ t.driveState.toNat ≤ 5 := by
  cases c with
  | home => exact next_unique rfl ht ▸ .inr (Nat.zero_le 5)
  | wrcfg i v => cases i <;> exact next_unique rfl ht ▸ .inl rfl
  | start rot vel => exact (execStart_phaseFrame ht).1.driveState
  | nop | clrf | rsv5 | rsv6 | rsv7 => exact next_unique rfl ht ▸ .inl rfl

/-- A command clears flags only where it is a CLRF (R218). -/
theorem exec_command_flags (c : Command) (ht : exec c.toInstr s = .next t) :
    FlagsKept s.flags t.flags ∨ ∃ m, c = .clrf m ∧ t.flags = clearFlags s.flags m := by
  cases c with
  | clrf m => exact next_unique rfl ht ▸ .inr ⟨m, rfl, rfl⟩
  | wrcfg i v =>
    cases i with
    | reg r => exact next_unique rfl ht ▸ .inl fun _ => id
    | reserved code => exact next_unique rfl ht ▸ .inl (flagsKept_setFlag _ _)
  | start rot vel => exact .inl (execStart_phaseFrame ht).1.flags
  | nop | home => exact next_unique rfl ht ▸ .inl fun _ => id
  | rsv5 | rsv6 | rsv7 => exact next_unique rfl ht ▸ .inl (flagsKept_setFlag _ _)

/-! ### What a step can change -/

/-- The command phase of a step from `s`: the accepted command takes `u` to `v`, or none is accepted (R113). -/
inductive CommandPhase (s u : State) : State → Prop where
  | ran {v : State} (c : Command) (hacc : Accepts s c.toInstr) (hrun : exec c.toInstr u = .next v) : CommandPhase s u v
  | none (hnone : ∀ i, ¬Accepts s i) : CommandPhase s u u

/-- A step is a reset, or P1 to P4 as `earlyPhases_frame` says, the command phase, and the tick (R110). -/
theorem step_cases (ht : step s = .next t) :
    ((nextPins s).rst = true ∧ t = { State.reset with env := (present s).env }) ∨
    ((nextPins s).rst = false ∧ ∃ u v, PhaseFrame (present s) u ∧ AlignOutcome (nextPins s).hall s.align u.align ∧
      CommandPhase s u v ∧ t = { v with now := v.now + 1 }) := by
  cases hr : (nextPins s).rst with
  | true => exact .inl ⟨rfl, next_unique (cycle_of_rst hr) ht⟩
  | false =>
    rw [step, cycle, if_neg (by rw [present_env_pins, hr]; decide)] at ht
    simp only [andThen_eq_next] at ht
    obtain ⟨u, hu, v, hv, htick⟩ := ht
    obtain ⟨frame, halign⟩ := earlyPhases_frame hu
    rw [present_align, present_env_pins] at halign
    have hpins : u.env.pins = nextPins s := by rw [frame.env, present_env_pins]
    have hready : cmdReady (present s) = !s.align.homing := by rw [cmdReady, present_align]
    rw [hpins, hready] at hv
    refine .inr ⟨rfl, u, v, frame, halign, ?_, next_unique rfl htick⟩
    obtain ⟨hc, he⟩ | ⟨hc, rfl⟩ := phase_eq_next.mp hv
    · obtain ⟨hvalid, hhoming⟩ : (nextPins s).cmdValid = true ∧ s.align.homing = false := by simpa using hc
      refine .ran (decodeCommand (nextPins s).cmd) ⟨hr, hvalid, hhoming, rfl⟩ ?_
      have hcmd := (execCmd_eq u).symm.trans he
      rwa [hpins] at hcmd
    · refine .none fun i ⟨_, hvalid, hhoming, _⟩ => ?_
      rw [hvalid, hhoming] at hc
      cases hc

/-- A step without reset (R110). -/
theorem step_cases_of_no_rst (hr : (nextPins s).rst = false) (ht : step s = .next t) :
    ∃ u v, PhaseFrame (present s) u ∧ AlignOutcome (nextPins s).hall s.align u.align ∧
      CommandPhase s u v ∧ t = { v with now := v.now + 1 } := by
  obtain ⟨hr', -⟩ | ⟨-, h⟩ := step_cases ht
  · exact absurd (hr.symm.trans hr') (by decide)
  · exact h

theorem AlignOutcome.eq_of_not_homing {hall : Sample} {a a' : Alignment} (h : AlignOutcome hall a a') (hh : a.homing = false) :
    a' = a := by
  cases h with
  | idle => rfl
  | settling h' | captured h' | failed h' => exact absurd (hh.symm.trans h') (by decide)

end

/-- Settles O43: the phases before the command leave the configuration alone. -/
theorem configurationChangesOnlyByWrcfg : Obligations.ConfigurationChangesOnlyByWrcfg := by
  intro s t ht hr hne
  obtain ⟨u, v, frame, -, hcmd, rfl⟩ := step_cases_of_no_rst hr ht
  have hu : u.cfg = s.cfg := frame.cfg.trans (present_cfg s)
  cases hcmd with
  | none => exact absurd hu hne
  | ran c hacc hrun =>
    obtain hv | ⟨r, x, rfl, hv⟩ := exec_command_cfg c hrun
    · exact absurd (hv.trans hu) hne
    · exact ⟨r, x, hacc, hu ▸ hv⟩

/-- Settles O44: before the command the budget only counts, and only START among the commands writes the session. -/
theorem sessionConstantsChangeOnlyAtStart : Obligations.SessionConstantsChangeOnlyAtStart := by
  intro s t ht hr hstart
  obtain ⟨u, v, frame, -, hcmd, rfl⟩ := step_cases_of_no_rst hr ht
  obtain ⟨hdir, hpid, hbudget⟩ : v.dir = u.dir ∧ v.pid = u.pid ∧ v.budget = u.budget := by
    cases hcmd with
    | none => exact ⟨rfl, rfl, rfl⟩
    | ran c hacc hrun =>
      obtain h | ⟨rot, vel, rfl, -⟩ := exec_command_session c hrun
      · exact h
      · exact absurd hacc (hstart rot vel)
  have hb : BudgetFrame s.budget v.budget := by simpa only [hbudget, present_budget] using frame.budget
  refine ⟨hdir.trans (frame.dir.trans (present_dir s)), ?_, hb.targetCnt, hb.win, hb.budgetOn, fun hd => ?_⟩
  · simpa only [hpid, present_pid] using frame.targetMag
  · exact (congrArg Budget.done (hb.of_done hd)).trans hd

/-- Settles O53: whatever drives the legs commands a state in 0 to 5. -/
theorem driveStateStaysCommanded : Obligations.DriveStateStaysCommanded := by
  intro s t ht hr hne
  obtain ⟨u, v, frame, -, hcmd, rfl⟩ := step_cases_of_no_rst hr ht
  have hu : u.driveState = s.driveState ∨ u.driveState.toNat ≤ 5 := by simpa only [present_driveState] using frame.driveState
  have hv : v.driveState = u.driveState ∨ v.driveState.toNat ≤ 5 := by
    cases hcmd with
    | none => exact .inl rfl
    | ran c _ hrun => exact exec_command_driveState c hrun
  rcases hv with hv | hv
  · exact hv ▸ hu.resolve_left (hv ▸ hne)
  · exact hv

/-- Settles O55: before the command flags only rise, and only CLRF among the commands clears one. -/
theorem flagsAreSticky : Obligations.FlagsAreSticky := by
  intro s t j ht hset hclear
  obtain ⟨hr, -⟩ | ⟨-, u, v, frame, -, hcmd, rfl⟩ := step_cases ht
  · exact .inl hr
  · have hu : u.flags.getLsbD j = true := frame.flags j (by rwa [present_flags])
    have not_kept : ¬FlagsKept u.flags v.flags := fun hkept => absurd (hclear.symm.trans (hkept j hu)) (by decide)
    cases hcmd with
    | none => exact absurd (fun _ => id) not_kept
    | ran c hacc hrun =>
      obtain hkept | ⟨m, rfl, hv⟩ := exec_command_flags c hrun
      · exact absurd hkept not_kept
      · refine .inr ⟨m, ?_, hacc⟩
        have hbit : (clearFlags u.flags m).getLsbD j = false := hv ▸ hclear
        have hj : j < 4 := BitVec.lt_of_getLsbD hu
        simpa [clearFlags, hu, hj] using hbit

/-- Settles O18: P2 alone writes `align_off`, and no command is accepted in its cycle. -/
theorem alignOffIsWrittenOnlyByCapture : Obligations.AlignOffIsWrittenOnlyByCapture := by
  intro s t ht hne
  obtain ⟨hr, -⟩ | ⟨-, u, v, -, halign, hcmd, rfl⟩ := step_cases ht
  · exact .inl hr
  · have hv : v.align.alignOff = u.align.alignOff ∧ (s.align.homing = true → v = u) := by
      cases hcmd with
      | none => exact ⟨rfl, fun _ => rfl⟩
      | ran c hacc hrun =>
        obtain ⟨-, -, hready, -⟩ := hacc
        refine ⟨?_, fun hh => absurd (hready.symm.trans hh) (by decide)⟩
        obtain h | ⟨-, -, h⟩ := exec_command_align c hrun
        · rw [h]
        · exact h
    obtain ⟨hoff, hvu⟩ := hv
    have hne' : u.align.alignOff ≠ s.align.alignOff := hoff ▸ hne
    generalize hu : u.align = a at halign
    rw [hu] at hne'
    cases halign with
    | idle | settling | failed => exact absurd rfl hne'
    | captured hh hc hval =>
      obtain rfl := hvu hh
      exact .inr ⟨hh, hc, hval, congrArg Alignment.alignOff hu, congrArg Alignment.homed hu⟩

/-! ### The mode machine (R50) -/

section
variable {s t : State}

theorem modeOf_eq_homing_iff : modeOf s = .homing ↔ s.align.homing = true := by
  unfold modeOf
  generalize s.align.homing = homing, s.align.homed = homed, s.budget.done = done
  revert homing homed done; decide

theorem modeOf_eq_unhomed_iff : modeOf s = .unhomed ↔ s.align.homing = false ∧ s.align.homed = false := by
  unfold modeOf
  generalize s.align.homing = homing, s.align.homed = homed, s.budget.done = done
  revert homing homed done; decide

theorem modeOf_eq_tracking_iff :
    modeOf s = .tracking ↔ s.align.homing = false ∧ s.align.homed = true ∧ s.budget.done = false := by
  unfold modeOf
  generalize s.align.homing = homing, s.align.homed = homed, s.budget.done = done
  revert homing homed done; decide

theorem modeOf_eq_held_iff :
    modeOf s = .held ↔ s.align.homing = false ∧ s.align.homed = true ∧ s.budget.done = true := by
  unfold modeOf
  generalize s.align.homing = homing, s.align.homed = homed, s.budget.done = done
  revert homing homed done; decide

/-- A cycle accepts one command at most. -/
theorem accepts_unique {i j : Instr} (hi : Accepts s i) (hj : Accepts s j) : i = j := by
  obtain ⟨-, -, -, rfl⟩ := hi
  obtain ⟨-, -, -, rfl⟩ := hj
  rfl

theorem not_accepts_of_ne {i j : Instr} (hi : Accepts s i) (hne : i ≠ j) : ¬Accepts s j :=
  fun hj => hne (accepts_unique hi hj)

/-- A cycle that begins in Homing mode accepts no command: P2 moves the alignment, and the budget can only count. -/
theorem step_of_homing (hh : s.align.homing = true) (hr : (nextPins s).rst = false) (ht : step s = .next t) :
    AlignOutcome (nextPins s).hall s.align t.align ∧ BudgetFrame s.budget t.budget := by
  obtain ⟨u, v, frame, halign, hcmd, rfl⟩ := step_cases_of_no_rst hr ht
  have hbudget : BudgetFrame s.budget u.budget := by simpa only [present_budget] using frame.budget
  cases hcmd with
  | none => exact ⟨halign, hbudget⟩
  | ran c hacc _ =>
    obtain ⟨-, -, hready, -⟩ := hacc
    exact absurd (hready.symm.trans hh) (by decide)

/-- A cycle that begins outside Homing mode accepts a HOME, or a START, or neither; then the alignment stands and the budget can
only count. -/
theorem step_of_not_homing (hh : s.align.homing = false) (hr : (nextPins s).rst = false) (ht : step s = .next t) :
    (Accepts s .home ∧ t.align.homing = true) ∨
    (∃ rot vel, Accepts s (.start rot vel) ∧ t.align = s.align ∧ t.budget.done = false) ∨
    (¬Accepts s .home ∧ (∀ rot vel, ¬Accepts s (.start rot vel)) ∧ t.align = s.align ∧ BudgetFrame s.budget t.budget) := by
  obtain ⟨u, v, frame, halign, hcmd, rfl⟩ := step_cases_of_no_rst hr ht
  have hbudget : BudgetFrame s.budget u.budget := by simpa only [present_budget] using frame.budget
  have hu : u.align = s.align := halign.eq_of_not_homing hh
  cases hcmd with
  | none hnone => exact .inr (.inr ⟨hnone _, fun _ _ => hnone _, hu, hbudget⟩)
  | ran c hacc hrun =>
    cases c with
    | home => exact .inl ⟨hacc, next_unique rfl hrun ▸ rfl⟩
    | start rot vel =>
      obtain ⟨-, halign', hbudget'⟩ := execStart_phaseFrame hrun
      exact .inr (.inl ⟨rot, vel, hacc, halign'.trans hu, congrArg Budget.done hbudget'⟩)
    | nop | wrcfg | clrf | rsv5 | rsv6 | rsv7 =>
      have hv : v.align = u.align := (exec_command_align _ hrun).resolve_right fun ⟨h, _⟩ => nomatch h
      obtain ⟨-, -, hb⟩ := (exec_command_session _ hrun).resolve_right fun ⟨_, _, h, _⟩ => nomatch h
      exact .inr (.inr ⟨not_accepts_of_ne hacc nofun, fun _ _ => not_accepts_of_ne hacc nofun, hv.trans hu, hb ▸ hbudget⟩)

theorem step_mode_of_unhomed (hmode : modeOf s = .unhomed) (hr : (nextPins s).rst = false) (ht : step s = .next t) :
    (Accepts s .home → modeOf t = .homing) ∧ (¬Accepts s .home → modeOf t = .unhomed) := by
  obtain ⟨hh, hhomed⟩ := modeOf_eq_unhomed_iff.mp hmode
  have stays (h : t.align = s.align) : modeOf t = .unhomed := modeOf_eq_unhomed_iff.mpr ⟨h ▸ hh, h ▸ hhomed⟩
  obtain ⟨hacc, hhoming⟩ | ⟨rot, vel, hacc, halign, -⟩ | ⟨hno, -, halign, -⟩ := step_of_not_homing hh hr ht
  · exact ⟨fun _ => modeOf_eq_homing_iff.mpr hhoming, fun h => absurd hacc h⟩
  · exact ⟨fun h => absurd h (not_accepts_of_ne hacc nofun), fun _ => stays halign⟩
  · exact ⟨fun h => absurd h hno, fun _ => stays halign⟩

theorem step_mode_of_settling (hh : s.align.homing = true) (hc : s.align.settleCnt ≠ 0) (hr : (nextPins s).rst = false)
    (ht : step s = .next t) : modeOf t = .homing := by
  obtain ⟨halign, -⟩ := step_of_homing hh hr ht
  generalize ha : t.align = a at halign
  cases halign with
  | idle h => exact absurd (hh.symm.trans h) (by decide)
  | settling => exact modeOf_eq_homing_iff.mpr (ha ▸ hh)
  | captured _ h | failed _ h => exact absurd h hc

/-- An Invalid sample at the end of the settling delay ends homing without success (R150); a legal state is not homed while homing. -/
theorem step_mode_of_failure (hlegal : HomingLegal s) (hh : s.align.homing = true) (hc : s.align.settleCnt = 0)
    (hv : (decodeSample (nextPins s).hall).valid = false) (hr : (nextPins s).rst = false) (ht : step s = .next t) :
    modeOf t = .unhomed := by
  obtain ⟨halign, -⟩ := step_of_homing hh hr ht
  generalize ha : t.align = a at halign
  cases halign with
  | idle h => exact absurd (hh.symm.trans h) (by decide)
  | settling _ h => exact absurd hc h
  | captured _ _ h => exact absurd (hv.symm.trans h) (by decide)
  | failed => exact modeOf_eq_unhomed_iff.mpr ⟨ha ▸ rfl, ha ▸ hlegal hh⟩

/-- A valid sample at the end of the settling delay ends homing with success (R149). -/
theorem step_align_of_capture (hh : s.align.homing = true) (hc : s.align.settleCnt = 0)
    (hv : (decodeSample (nextPins s).hall).valid = true) (hr : (nextPins s).rst = false) (ht : step s = .next t) :
    t.align.homing = false ∧ t.align.homed = true := by
  obtain ⟨halign, -⟩ := step_of_homing hh hr ht
  generalize t.align = a at halign
  cases halign with
  | idle h => exact absurd (hh.symm.trans h) (by decide)
  | settling _ h => exact absurd hc h
  | captured => exact ⟨rfl, rfl⟩
  | failed _ _ h => exact absurd (hv.symm.trans h) (by decide)

/-- A homed state whose budget has only counted: a budget that was done is held; one that was not is still tracked, or is held with the
count at zero. -/
theorem mode_of_budgetFrame {b : Budget} (hh : t.align.homing = false) (hhomed : t.align.homed = true)
    (hb : BudgetFrame b t.budget) :
    (b.done = true → modeOf t = .held) ∧
    (b.done = false → modeOf t = .tracking ∨ (modeOf t = .held ∧ t.budget.rem = 0 ∧ b.budgetOn = true)) := by
  refine ⟨fun hd => modeOf_eq_held_iff.mpr ⟨hh, hhomed, (congrArg Budget.done (hb.of_done hd)).trans hd⟩, fun hd => ?_⟩
  cases htd : t.budget.done with
  | false => exact .inl (modeOf_eq_tracking_iff.mpr ⟨hh, hhomed, htd⟩)
  | true =>
    obtain ⟨hon, hrem⟩ := hb.becomes_done hd htd
    exact .inr ⟨modeOf_eq_held_iff.mpr ⟨hh, hhomed, htd⟩, hrem, hon⟩

/-- From Tracking and Held mode: HOME homes, START tracks, and without them the budget only counts. -/
theorem step_mode_of_homed (hh : s.align.homing = false) (hhomed : s.align.homed = true) (hr : (nextPins s).rst = false)
    (ht : step s = .next t) :
    (Accepts s .home → modeOf t = .homing) ∧ ((∃ rot vel, Accepts s (.start rot vel)) → modeOf t = .tracking) ∧
    (¬Accepts s .home → (¬∃ rot vel, Accepts s (.start rot vel)) →
      (s.budget.done = true → modeOf t = .held) ∧
      (s.budget.done = false → modeOf t = .tracking ∨ (modeOf t = .held ∧ t.budget.rem = 0 ∧ s.budget.budgetOn = true))) := by
  obtain ⟨hacc, hhoming⟩ | ⟨rot, vel, hacc, halign, htd⟩ | ⟨hno, hnostart, halign, hbudget⟩ := step_of_not_homing hh hr ht
  · exact ⟨fun _ => modeOf_eq_homing_iff.mpr hhoming, fun ⟨_, _, h⟩ => absurd h (not_accepts_of_ne hacc nofun),
      fun h => absurd hacc h⟩
  · exact ⟨fun h => absurd h (not_accepts_of_ne hacc nofun),
      fun _ => modeOf_eq_tracking_iff.mpr ⟨halign ▸ hh, halign ▸ hhomed, htd⟩, fun _ h => absurd ⟨rot, vel, hacc⟩ h⟩
  · exact ⟨fun h => absurd h hno, fun ⟨_, _, h⟩ => absurd h (hnostart _ _),
      fun _ _ => mode_of_budgetFrame (halign ▸ hh) (halign ▸ hhomed) hbudget⟩

end

/-- Settles O56: P2 alone leaves Homing mode; elsewhere HOME enters it, START clears `done`, and without them `done` can only rise,
with the count at zero. -/
theorem modeTransitions : Obligations.ModeTransitions := by
  intro s t hlegal ht p home start
  obtain ⟨-, -, -, -, ⟨hlive, -, -⟩, hhomingLegal⟩ := hlegal
  refine ⟨fun hr => ?reset, fun hr => ⟨fun hmode => step_mode_of_unhomed hmode hr ht, fun hmode => ?homing,
    fun hmode => ?tracking, fun hmode => ?held⟩⟩
  case reset =>
    obtain ⟨-, rfl⟩ | ⟨hr', -⟩ := step_cases ht
    · rfl
    · exact absurd (hr.symm.trans hr') (by decide)
  case homing =>
    have hh := modeOf_eq_homing_iff.mp hmode
    have captured (hc : s.align.settleCnt = 0) (hv : (decodeSample p.hall).valid = true) :=
      have ⟨hdown, hhomed⟩ := step_align_of_capture hh hc hv hr ht
      mode_of_budgetFrame hdown hhomed (step_of_homing hh hr ht).2
    exact ⟨fun hc => step_mode_of_settling hh hc hr ht, fun hc hv => step_mode_of_failure hhomingLegal hh hc hv hr ht,
      fun hc hv hd => (captured hc hv).1 hd,
      fun hc hv hd => ((captured hc hv).2 hd).imp_right fun ⟨hheld, hrem, _⟩ => ⟨hheld, hrem⟩⟩
  case tracking =>
    obtain ⟨hh, hhomed, hd⟩ := modeOf_eq_tracking_iff.mp hmode
    obtain ⟨hhome, hstart, hcount⟩ := step_mode_of_homed hh hhomed hr ht
    exact ⟨hhome, hstart, fun hno hnostart => ((hcount hno hnostart).2 hd).imp_right
      fun ⟨hheld, hrem, hon⟩ => ⟨hheld, hrem, (hlive ⟨hon, hd⟩).1⟩⟩
  case held =>
    obtain ⟨hh, hhomed, hd⟩ := modeOf_eq_held_iff.mp hmode
    obtain ⟨hhome, hstart, hcount⟩ := step_mode_of_homed hh hhomed hr ht
    exact ⟨hhome, hstart, fun hno hnostart => (hcount hno hnostart).1 hd⟩

end Sys2Proof.Machine
end

section
/-! The operations whose result is stated outright: RESET and WRCFG (R46, R59, R213). -/
namespace Sys2Proof.Machine

/-- What the register map reads depends on no element outside the CORE. -/
theorem readEntry_env (s : State) (e : Env) (i : BitVec 5) : readEntry { s with env := e } i = readEntry s i := rfl

/-- The 32 words of the register map after reset (R59, V23). -/
theorem readEntry_reset :
    (List.range 32).map (fun i => readEntry State.reset (BitVec.ofNat 5 i)) =
      [0x8000, 0, 0, 0x7FFFFFFF, 2, 8, 1000000, 0x10000, 0x10000, 0, 0, 0, 0, 0, 0, 0,
       0, 0, 0x707, 0, 0, 0, 0x10000, 0, 0, 0, 0, 0, 0, 0, 0, 0] := by decide

/-- Settles O45: the register map does not read the environment, so it reads as in `State.reset`. -/
theorem resetResult : Obligations.ResetResult := fun s =>
  ⟨{ State.reset with env := s.env }, rfl,
    (List.map_congr_left fun _ _ => readEntry_env State.reset s.env _).trans readEntry_reset, rfl, rfl, rfl, rfl, rfl, rfl, rfl, rfl⟩

/-- The low bits of a word are its remainder (R46). -/
theorem extractLsb'_zero_eq_ofNat_mod (v : Word) (n : Nat) : v.extractLsb' 0 n = BitVec.ofNat n (v.toNat % 2 ^ n) := by
  apply BitVec.eq_of_toNat_eq
  simp

/-- A reserved index or opcode sets `ERR_CMD`, which is flag 3 (R216, R220). -/
theorem setFlag_malformedCommand (f : BitVec 4) : setFlag f .malformedCommand = f ||| 0b1000 := rfl

theorem exec_wrcfg_reg (r : CfgReg) (v : Word) (s : State) :
    exec (.wrcfg (.reg r) v) s = .next { s with cfg := cfgWrite r v s.cfg } := rfl

/-- Settles O37: each register's normalisation in integers. -/
theorem wrcfgResult : Obligations.WrcfgResult := by
  intro v s
  refine ⟨rfl, rfl, rfl, ?iMax, ?leadMag, ?decelWin, rfl, ?dutyInit, ?homeDuty, fun code _ => ?reserved⟩
  case iMax => rw [exec_wrcfg_reg, cfgWrite, numAbs_eq]
  case leadMag => rw [exec_wrcfg_reg, cfgWrite, extractLsb'_zero_eq_ofNat_mod]; rfl
  case decelWin => rw [exec_wrcfg_reg, cfgWrite, extractLsb'_zero_eq_ofNat_mod]; rfl
  case dutyInit => rw [exec_wrcfg_reg, cfgWrite, clamp01_eq]
  case homeDuty => rw [exec_wrcfg_reg, cfgWrite, clamp01_eq]
  case reserved =>
    show (.next (raise .malformedCommand s) : Result) = _
    rw [raise, setFlag_malformedCommand]

end Sys2Proof.Machine
end

section
/-! The register map (R60 to R63, R89): what the packed and the reserved entries read, and what a WRCFG changes of it. -/
namespace Sys2Proof.Machine

/-! ### The packed entries (R62) -/

theorem bitAt_getLsbD (n j : Nat) (b : Bool) : (bitAt n b).getLsbD j = (decide (j < 32) && decide (j = n) && b) := by
  cases b with
  | false => simp [bitAt]
  | true => simp only [bitAt, if_true, ← BitVec.twoPow_eq, BitVec.getLsbD_twoPow]; grind

/-- STATUS bit by bit: the ten bits it packs stand at their places, and every other bit is 0. -/
theorem statusWord_getLsbD (s : State) (j : Nat) :
    (statusWord s).getLsbD j =
      [s.align.homed, s.align.homing, s.align.homeFail, decide (s.dir = .reverse), s.budget.budgetOn, s.budget.latch,
       s.budget.done, s.est.velPending, s.est.tRefValid, s.out.onPend].getD j false := by
  simp only [statusWord, BitVec.getLsbD_or, bitAt_getLsbD]
  match j with
  | 0 | 1 | 2 | 3 | 4 | 5 | 6 | 7 | 8 | 9 => simp
  | j + 10 => simp

/-- A field placed above all the bits of a word is added to it. -/
theorem toNat_or_shiftLeft {w : Word} {m n k : Nat} (f : BitVec n) (hw : w.toNat = m) (hm : m < 2 ^ k) (hk : k + n ≤ 32) :
    (w ||| f.setWidth 32 <<< k).toNat = m + 2 ^ k * f.toNat := by
  have hlt : f.toNat * 2 ^ k < 2 ^ 32 :=
    calc f.toNat * 2 ^ k < 2 ^ n * 2 ^ k := Nat.mul_lt_mul_of_pos_right f.isLt (Nat.two_pow_pos k)
      _ = 2 ^ (k + n) := by rw [← Nat.pow_add, Nat.add_comm]
      _ ≤ 2 ^ 32 := Nat.pow_le_pow_right (by omega) hk
  have hfield : (f.setWidth 32 <<< k).toNat = 2 ^ k * f.toNat := by
    rw [BitVec.toNat_shiftLeft, BitVec.toNat_setWidth_of_le (by omega), Nat.shiftLeft_eq, Nat.mod_eq_of_lt hlt, Nat.mul_comm]
  rw [BitVec.toNat_or, hw, hfield, Nat.or_comm, ← Nat.two_pow_add_eq_or_of_lt hm, Nat.add_comm]

/-- ROTOR as a number: its four fields of three bits do not overlap. -/
theorem rotorWord_toNat (s : State) :
    (rotorWord s).toNat = s.sensor.rotorPrev.toNat + 16 * s.align.alignOff.toNat + 256 * s.driveState.toNat +
      4096 * s.sensor.hallQ.toNat := by
  have hprev : (s.sensor.rotorPrev.setWidth 32).toNat = s.sensor.rotorPrev.toNat := BitVec.toNat_setWidth_of_le (by omega)
  have hoff := toNat_or_shiftLeft (k := 4) s.align.alignOff hprev (by omega) (by omega)
  have hdrive := toNat_or_shiftLeft (k := 8) s.driveState hoff (by omega) (by omega)
  exact toNat_or_shiftLeft (k := 12) s.sensor.hallQ hdrive (by omega) (by omega)

/-- What the two packed entries read after reset (R62). -/
theorem statusWord_reset : statusWord State.reset = 0 := by decide

theorem rotorWord_reset : rotorWord State.reset = 0x707 := by decide

/-! ### The entries by index (R60) -/

theorem readEntry_reserved (s : State) {i : BitVec 5} (hlo : 9 ≤ i.toNat) (hhi : i.toNat ≤ 15) : readEntry s i = 0 := by
  interval_cases h : i.toNat <;> simp only [readEntry, h]

/-- From 9 on no entry shows a configuration register. -/
theorem readEntry_cfg_of_ge (s : State) (c : CfgRegs) {i : BitVec 5} (hi : 9 ≤ i.toNat) :
    readEntry { s with cfg := c } i = readEntry s i := by
  have hlt : i.toNat < 32 := i.isLt
  interval_cases h : i.toNat <;> simp only [readEntry, h] <;> rfl

/-- Settles O41: a whole register is read as it is, a narrow one is zero-extended (R89), and the packed ones have their lemmas. -/
theorem registerMapEntriesReadTheirElements : Obligations.RegisterMapEntriesReadTheirElements := by
  refine ⟨statusWord_reset, rotorWord_reset, fun s => ?_⟩
  have zeroExtended {n : Nat} (hn : n ≤ 32) (x : BitVec n) : (x.setWidth 32).toNat = x.toNat := BitVec.toNat_setWidth_of_le hn
  exact ⟨⟨rfl, rfl, rfl, rfl, zeroExtended (by decide) s.cfg.leadMag, zeroExtended (by decide) s.cfg.decelWin, rfl, rfl, rfl⟩,
    fun _ => readEntry_reserved s, statusWord_getLsbD s, zeroExtended (by decide) s.flags, rotorWord_toNat s,
    zeroExtended (by decide) s.out.outLegs, rfl, rfl, rfl, rfl, rfl, rfl, rfl, rfl, rfl,
    zeroExtended (by decide) s.budget.win, rfl, rfl⟩

/-! ### The entries of the configuration registers (R46, R63) -/

/-- The entry of the register map that shows a configuration register. -/
def cfgEntry (r : CfgReg) : BitVec 5 := (cfgRegCode r).setWidth 5

/-- A configuration register as a whole word. -/
def cfgWord (c : CfgRegs) : CfgReg → Word
  | .kp => c.kp
  | .ki => c.ki
  | .kd => c.kd
  | .iMax => c.iMax
  | .leadMag => c.leadMag.setWidth 32
  | .decelWin => c.decelWin.setWidth 32
  | .settle => c.settle
  | .dutyInit => c.dutyInit
  | .homeDuty => c.homeDuty

theorem readEntry_cfgEntry (s : State) (r : CfgReg) : readEntry s (cfgEntry r) = cfgWord s.cfg r := by
  cases r <;> rfl

/-- The entries below 9 are those of the configuration registers. -/
theorem exists_cfgEntry_eq {i : BitVec 5} (hi : i.toNat < 9) : ∃ r, i = cfgEntry r := by
  obtain ⟨r, hr⟩ : ∃ r, i.toNat = (cfgEntry r).toNat := by
    match i.toNat, hi with
    | 0, _ => exact ⟨.kp, rfl⟩
    | 1, _ => exact ⟨.ki, rfl⟩
    | 2, _ => exact ⟨.kd, rfl⟩
    | 3, _ => exact ⟨.iMax, rfl⟩
    | 4, _ => exact ⟨.leadMag, rfl⟩
    | 5, _ => exact ⟨.decelWin, rfl⟩
    | 6, _ => exact ⟨.settle, rfl⟩
    | 7, _ => exact ⟨.dutyInit, rfl⟩
    | 8, _ => exact ⟨.homeDuty, rfl⟩
  exact ⟨r, BitVec.eq_of_toNat_eq hr⟩

/-- A write leaves the other registers alone: a pair of two names shows a field the write does not touch. -/
theorem cfgWord_cfgWrite_of_ne {r q : CfgReg} (v : Word) (c : CfgRegs) (hne : q ≠ r) :
    cfgWord (cfgWrite r v c) q = cfgWord c q := by
  cases r <;> cases q <;> first | exact absurd rfl hne | rfl

/-- The low bits of a word, zero-extended, are its remainder (R46, R89). -/
theorem setWidth_extractLsb'_zero (v : Word) {n : Nat} (hn : n ≤ 32) :
    (v.extractLsb' 0 n).setWidth 32 = BitVec.ofNat 32 (v.toNat % 2 ^ n) := by
  have hlt : v.toNat % 2 ^ n < 2 ^ 32 := (Nat.mod_le _ _).trans_lt v.isLt
  apply BitVec.eq_of_toNat_eq
  rw [BitVec.toNat_setWidth_of_le hn, extractLsb'_zero_eq_ofNat_mod, BitVec.toNat_ofNat, Nat.mod_mod, BitVec.toNat_ofNat,
    Nat.mod_eq_of_lt hlt]

/-- Settles O42: the written register's word is the normalisation; another entry shows another register, or none. -/
theorem wrcfgReadsBack : Obligations.WrcfgReadsBack := by
  refine fun r v s => ⟨_, exec_wrcfg_reg r v s, (readEntry_cfgEntry _ r).trans ?written, fun i hne => ?other⟩
  case written =>
    cases r with
    | iMax => exact numAbs_eq v
    | leadMag => exact setWidth_extractLsb'_zero v (n := 3) (by decide)
    | decelWin => exact setWidth_extractLsb'_zero v (n := 16) (by decide)
    | dutyInit | homeDuty => exact clamp01_eq v
    | kp | ki | kd | settle => rfl
  case other =>
    obtain hi | hi := Nat.lt_or_ge i.toNat 9
    · obtain ⟨q, rfl⟩ := exists_cfgEntry_eq hi
      have hqr : q ≠ r := fun h => hne (congrArg cfgEntry h)
      rw [readEntry_cfgEntry, readEntry_cfgEntry, cfgWord_cfgWrite_of_ne v s.cfg hqr]
    · exact readEntry_cfg_of_ge s _ hi

end Sys2Proof.Machine
end

section
/-! The command word (R90 to R92): its three fields as bits and as numbers, the row that each opcode selects, and from them that the
decoder reads back what the encoder writes. -/
namespace Sys2Proof

/-! ### The fields of a word -/

/-- The bits of a packed word (R90). -/
theorem packWord_getLsbD (op : BitVec 3) (a b : Word) (j : Nat) :
    (packWord op a b).getLsbD j =
      if j < 32 then b.getLsbD j else if j < 64 then a.getLsbD (j - 32) else op.getLsbD (j - 64) := by
  simp only [packWord, BitVec.getLsbD_cast, BitVec.getLsbD_append]
  grind

/-- The fields of a packed word are the ones it was packed from. -/
@[simp] theorem opField_packWord (op : BitVec 3) (a b : Word) : opField (packWord op a b) = op := by
  apply BitVec.eq_of_getLsbD_eq
  intro j hj
  rw [opField, BitVec.getLsbD_extractLsb', packWord_getLsbD, if_neg (by omega), if_neg (by omega), Nat.add_sub_cancel_left,
    decide_eq_true hj, Bool.true_and]

@[simp] theorem aField_packWord (op : BitVec 3) (a b : Word) : aField (packWord op a b) = a := by
  apply BitVec.eq_of_getLsbD_eq
  intro j hj
  rw [aField, BitVec.getLsbD_extractLsb', packWord_getLsbD, if_neg (by omega), if_pos (by omega), Nat.add_sub_cancel_left,
    decide_eq_true hj, Bool.true_and]

@[simp] theorem bField_packWord (op : BitVec 3) (a b : Word) : bField (packWord op a b) = b := by
  apply BitVec.eq_of_getLsbD_eq
  intro j hj
  rw [bField, BitVec.getLsbD_extractLsb', packWord_getLsbD, Nat.zero_add, if_pos hj, decide_eq_true hj, Bool.true_and]

/-- The fields of any word as numbers (R90): the opcode is what stands above bit 63. -/
theorem opField_toNat (w : CmdWord) : (opField w).toNat = w.toNat / 2 ^ 64 := by
  have hw := w.isLt
  rw [opField, BitVec.extractLsb'_toNat, Nat.shiftRight_eq_div_pow]
  omega

theorem aField_eq_ofNat (w : CmdWord) : aField w = BitVec.ofNat 32 (w.toNat / 2 ^ 32 % 2 ^ 32) := by
  apply BitVec.eq_of_toNat_eq
  rw [aField, BitVec.extractLsb'_toNat, Nat.shiftRight_eq_div_pow, BitVec.toNat_ofNat, Nat.mod_mod]

theorem bField_eq_ofNat (w : CmdWord) : bField w = BitVec.ofNat 32 (w.toNat % 2 ^ 32) := by
  apply BitVec.eq_of_toNat_eq
  rw [bField, BitVec.extractLsb'_toNat, Nat.shiftRight_zero, BitVec.toNat_ofNat, Nat.mod_mod]

/-- The low four bits of an operand, as a number below 16. -/
theorem extractLsb'_zero_four_ofNat {n : Nat} (hn : n < 2 ^ 32) :
    (BitVec.ofNat 32 n).extractLsb' 0 4 = BitVec.ofNat 4 (n % 16) := by
  rw [Machine.extractLsb'_zero_eq_ofNat_mod, BitVec.toNat_ofNat, Nat.mod_eq_of_lt hn]
  rfl

/-- WRCFG's index and CLRF's mask are the low four bits of their operand (R92). -/
theorem cfgIndexField_ofNat {n : Nat} (hn : n < 2 ^ 32) : cfgIndexField (BitVec.ofNat 32 n) = BitVec.ofNat 4 (n % 16) :=
  extractLsb'_zero_four_ofNat hn

theorem maskField_ofNat {n : Nat} (hn : n < 2 ^ 32) : maskField (BitVec.ofNat 32 n) = BitVec.ofNat 4 (n % 16) :=
  extractLsb'_zero_four_ofNat hn

/-- What the encoder zero-extends is read back by the field that takes the low four bits. -/
@[simp] theorem cfgIndexField_setWidth (i : BitVec 4) : cfgIndexField (i.setWidth 32) = i := by
  revert i; decide

@[simp] theorem maskField_setWidth (m : BitVec 4) : maskField (m.setWidth 32) = m := by
  revert m; decide

/-! ### The configuration index (R46) -/

/-- The indices 9 to 15 name no register (R216). -/
theorem cfgIndexOf_of_ge {i : BitVec 4} (hi : 9 ≤ i.toNat) : cfgIndexOf i = .reserved i := by
  revert i; decide

/-- The registers' indices are their places in the order of R46. -/
theorem cfgIndexOf_of_lookup (i : BitVec 4) :
    ∀ r ∈ [CfgReg.kp, .ki, .kd, .iMax, .leadMag, .decelWin, .settle, .dutyInit, .homeDuty][i.toNat]?, cfgIndexOf i = .reg r := by
  revert i; decide

theorem cfgIndexOf_cfgIndexCode {i : CfgIndex} (hi : cfgIndexOk i = true) : cfgIndexOf (cfgIndexCode i) = i := by
  cases i with
  | reg r => cases r <;> rfl
  | reserved code => exact cfgIndexOf_of_ge (of_decide_eq_true hi)

/-! ### The row of an opcode (R91)

The eight proofs open `decodeCommand` by `delta`: they are elaborated side by side, and with `simp` or `unfold` each would wait in a
thread of its own for the definition's equations. -/

section
variable {w : CmdWord}

theorem decodeCommand_nop (h : (opField w).toNat = 0) : decodeCommand w = .nop := by
  delta decodeCommand; rw [h]; rfl

theorem decodeCommand_home (h : (opField w).toNat = 1) : decodeCommand w = .home := by
  delta decodeCommand; rw [h]; rfl

theorem decodeCommand_start (h : (opField w).toNat = 2) : decodeCommand w = .start (aField w) (bField w) := by
  delta decodeCommand; rw [h]; rfl

theorem decodeCommand_wrcfg (h : (opField w).toNat = 3) :
    decodeCommand w = .wrcfg (cfgIndexOf (cfgIndexField (aField w))) (bField w) := by
  delta decodeCommand; rw [h]; rfl

theorem decodeCommand_clrf (h : (opField w).toNat = 4) : decodeCommand w = .clrf (maskField (bField w)) := by
  delta decodeCommand; rw [h]; rfl

theorem decodeCommand_rsv5 (h : (opField w).toNat = 5) : decodeCommand w = .rsv5 := by
  delta decodeCommand; rw [h]; rfl

theorem decodeCommand_rsv6 (h : (opField w).toNat = 6) : decodeCommand w = .rsv6 := by
  delta decodeCommand; rw [h]; rfl

theorem decodeCommand_rsv7 (h : (opField w).toNat = 7) : decodeCommand w = .rsv7 := by
  delta decodeCommand; rw [h]; rfl

end

/-! ### Decoding reads back encoding -/

theorem decodeCommand_encodeCommand {c : Command} (hc : WellFormed c.toInstr = true) : decodeCommand (encodeCommand c) = c := by
  cases c with
  | nop => exact decodeCommand_nop rfl
  | home => exact decodeCommand_home rfl
  | start rot vel =>
    have hop : opField (packWord 2 rot vel) = 2 := opField_packWord ..
    rw [encodeCommand, decodeCommand_start (congrArg _ hop), aField_packWord, bField_packWord]
  | wrcfg i v =>
    have hop : opField (packWord 3 ((cfgIndexCode i).setWidth 32) v) = 3 := opField_packWord ..
    rw [encodeCommand, decodeCommand_wrcfg (congrArg _ hop), aField_packWord, bField_packWord, cfgIndexField_setWidth,
      cfgIndexOf_cfgIndexCode hc]
  | clrf m =>
    have hop : opField (packWord 4 0 (m.setWidth 32)) = 4 := opField_packWord ..
    rw [encodeCommand, decodeCommand_clrf (congrArg _ hop), bField_packWord, maskField_setWidth]
  | rsv5 => exact decodeCommand_rsv5 rfl
  | rsv6 => exact decodeCommand_rsv6 rfl
  | rsv7 => exact decodeCommand_rsv7 rfl

/-- Only the eight commands have a word (R100). -/
theorem exists_command_of_encode {i : Instr} {w : CmdWord} (h : encode i = some w) :
    ∃ c : Command, i = c.toInstr ∧ w = encodeCommand c := by
  cases i with
  | nop => exact ⟨.nop, rfl, (Option.some.inj h).symm⟩
  | home => exact ⟨.home, rfl, (Option.some.inj h).symm⟩
  | start rot vel => exact ⟨.start rot vel, rfl, (Option.some.inj h).symm⟩
  | wrcfg i v => exact ⟨.wrcfg i v, rfl, (Option.some.inj h).symm⟩
  | clrf m => exact ⟨.clrf m, rfl, (Option.some.inj h).symm⟩
  | rsv5 => exact ⟨.rsv5, rfl, (Option.some.inj h).symm⟩
  | rsv6 => exact ⟨.rsv6, rfl, (Option.some.inj h).symm⟩
  | rsv7 => exact ⟨.rsv7, rfl, (Option.some.inj h).symm⟩
  | _ => cases h

/-- Settles O1: an instruction with a word is a command, and the fields of the command's word are its operands. -/
theorem decodeReadsBackEncode : Obligations.DecodeReadsBackEncode := by
  intro i w hwf hencode
  obtain ⟨c, rfl, rfl⟩ := exists_command_of_encode hencode
  rw [decodeWord, decodeCommand_encodeCommand hwf]

/-! ### Every word selects a row -/

/-- Settles O2: the row is the opcode's, and its operands are the fields read as numbers. -/
theorem everyWordSelectsItsRow : Obligations.EveryWordSelectsItsRow := by
  intro w op a b
  have hop : (opField w).toNat = op := opField_toNat w
  have ha : aField w = BitVec.ofNat 32 a := aField_eq_ofNat w
  have hb : bField w = BitVec.ofNat 32 b := bField_eq_ofNat w
  have hindex : cfgIndexField (aField w) = BitVec.ofNat 4 (a % 16) := ha ▸ cfgIndexField_ofNat (Nat.mod_lt _ (by decide))
  have hmask : maskField (bField w) = BitVec.ofNat 4 (b % 16) := hb ▸ maskField_ofNat (Nat.mod_lt _ (by decide))
  have hcode : (BitVec.ofNat 4 (a % 16)).toNat = a % 16 := by simp
  refine ⟨?bound, fun h => ?nop, fun h => ?home, fun h => ?start, fun h r hr => ?register, fun h hge => ?reserved,
    fun h => ?clrf, fun h => ?rsv5, fun h => ?rsv6, fun h => ?rsv7⟩
  case bound => exact hop ▸ Nat.le_of_lt_succ (opField w).isLt
  case nop => rw [decodeWord, decodeCommand_nop (hop.trans h)]; rfl
  case home => rw [decodeWord, decodeCommand_home (hop.trans h)]; rfl
  case start => rw [decodeWord, decodeCommand_start (hop.trans h), ha, hb]; rfl
  case register =>
    have hreg := cfgIndexOf_of_lookup (BitVec.ofNat 4 (a % 16)) r (by rwa [hcode])
    rw [decodeWord, decodeCommand_wrcfg (hop.trans h), hindex, hreg, hb]; rfl
  case reserved =>
    have hres := cfgIndexOf_of_ge (i := BitVec.ofNat 4 (a % 16)) (by rwa [hcode])
    rw [decodeWord, decodeCommand_wrcfg (hop.trans h), hindex, hres, hb]; rfl
  case clrf => rw [decodeWord, decodeCommand_clrf (hop.trans h), hmask]; rfl
  case rsv5 => rw [decodeWord, decodeCommand_rsv5 (hop.trans h)]; rfl
  case rsv6 => rw [decodeWord, decodeCommand_rsv6 (hop.trans h)]; rfl
  case rsv7 => rw [decodeWord, decodeCommand_rsv7 (hop.trans h)]; rfl

/-! ### Nine bytes of a word -/

@[simp] theorem natToBytes_length (n w : Nat) : (natToBytes n w).length = n := by
  induction n generalizing w with
  | zero => rfl
  | succ n ih => exact congrArg (· + 1) (ih (w / 256))

/-- The low `n` bytes of a number hold its remainder. -/
theorem bytesToNat_natToBytes (n w : Nat) : bytesToNat (natToBytes n w) = w % 256 ^ n := by
  induction n generalizing w with
  | zero => exact (Nat.mod_one w).symm
  | succ n ih =>
    calc bytesToNat (natToBytes (n + 1) w)
      _ = w % 256 + 256 * (w / 256 % 256 ^ n) := by rw [natToBytes, bytesToNat, ih, BitVec.toNat_ofNat]
      _ = w % 256 ^ (n + 1) := by rw [← Nat.mod_mul, ← Nat.pow_succ']

theorem decodeBytes_of_length_ne {bs : List Byte} (h : bs.length ≠ 9) : decodeBytes bs = .error (.wrongLength bs.length) :=
  if_pos h

theorem decodeBytes_of_ge {bs : List Byte} (h : bs.length = 9) (hbig : 2 ^ 67 ≤ bytesToNat bs) :
    decodeBytes bs = .error .bitAboveThePort := by
  rw [decodeBytes, if_neg (not_not_intro h), if_pos hbig]

theorem decodeBytes_of_lt {bs : List Byte} (h : bs.length = 9) (hfit : bytesToNat bs < 2 ^ 67) :
    decodeBytes bs = .ok (decodeWord (BitVec.ofNat 67 (bytesToNat bs))) := by
  rw [decodeBytes, if_neg (not_not_intro h), if_neg (Nat.not_le_of_lt hfit)]

/-- Settles O4: nine bytes have room for a word, so a word's bytes hold the word. -/
theorem bytesOfAWordDecodeToItsRow : Obligations.BytesOfAWordDecodeToItsRow := by
  refine ⟨fun w => ?word, fun _ => decodeBytes_of_length_ne, fun _ => decodeBytes_of_ge⟩
  have hroom : w.toNat < 256 ^ 9 := w.isLt.trans (by decide)
  have hbytes : bytesToNat (natToBytes 9 w.toNat) = w.toNat := by
    rw [bytesToNat_natToBytes, Nat.mod_eq_of_lt hroom]
  have hfit : bytesToNat (natToBytes 9 w.toNat) < 2 ^ 67 := by rw [hbytes]; exact w.isLt
  rw [decodeBytes_of_lt (natToBytes_length 9 _) hfit, hbytes, BitVec.ofNat_toNat, BitVec.setWidth_eq]

/-- Settles O3: seven closed words, each decoded by evaluation. -/
theorem writtenWordsDecode : Obligations.WrittenWordsDecode :=
  ⟨by decide, by decide, by decide, by decide, by decide, by decide, by decide⟩

end Sys2Proof
end

section
/-! The drive table (R85, R86): the entries of the six commanded states, each beside its neighbour. -/
namespace Sys2Proof.Machine

/-- A commanded entry energises one low-side driver and one high-side driver (R86 b). -/
theorem driveTable_one_low_one_high {d : DriveState} (hd : d.toNat ≤ 5) :
    ([0, 2, 4].filter fun j => (driveTable d).getLsbD j).length = 1 ∧
    ([1, 3, 5].filter fun j => (driveTable d).getLsbD j).length = 1 := by
  revert d; decide

/-- From an even state to the next one, two high-side drivers are exchanged and the low-side one stays (R86 d). -/
theorem driveTable_next_of_even {d : DriveState} (hd : d.toNat ≤ 5) (heven : d.toNat % 2 = 0) :
    ([1, 3, 5].filter fun j =>
      (driveTable d ^^^ driveTable (BitVec.ofNat 3 ((d.toNat + 1) % 6))).getLsbD j).length = 2 ∧
    (driveTable d ^^^ driveTable (BitVec.ofNat 3 ((d.toNat + 1) % 6))) &&& 0x15 = 0 := by
  revert d; decide

/-- From an odd state to the next one, two low-side drivers are exchanged and the high-side one stays (R86 d). -/
theorem driveTable_next_of_odd {d : DriveState} (hd : d.toNat ≤ 5) (hodd : d.toNat % 2 = 1) :
    ([0, 2, 4].filter fun j =>
      (driveTable d ^^^ driveTable (BitVec.ofNat 3 ((d.toNat + 1) % 6))).getLsbD j).length = 2 ∧
    (driveTable d ^^^ driveTable (BitVec.ofNat 3 ((d.toNat + 1) % 6))) &&& 0x2A = 0 := by
  revert d; decide

/-- Settles O6: the entries one by one, and a pattern that shorts no leg shorts none after drivers are turned off. -/
theorem driveTableMeetsItsConstraints : Obligations.DriveTableMeetsItsConstraints := by
  refine ⟨rfl, rfl, fun d hd => ?entry, fun d hd => ⟨driveTable_next_of_even hd, driveTable_next_of_odd hd⟩, fun p q hp => ?off⟩
  case entry =>
    obtain ⟨hlow, hhigh⟩ := driveTable_one_low_one_high hd
    exact ⟨hlow, hhigh, driveTable_noShootThrough d⟩
  case off => rw [BitVec.and_comm]; exact noShootThrough_and hp

end Sys2Proof.Machine
end

section
/-! The step as its phases (R110): every step completes, its phases in their order, the command it accepts, and the cycles it counts. -/
namespace Sys2Proof.Machine

section
variable {s t : State}

/-! ### Which fields a phase can write -/

theorem execHoming_frame (s : State) : ∃ a f, execHoming s = .next { s with align := a, flags := f } := by
  obtain ⟨-, h⟩ | ⟨-, -, h⟩ | ⟨-, -, h⟩ := execHoming_cases s <;> exact ⟨_, _, h⟩

theorem execPidstep_frame (s : State) : ∃ e p f, execPidstep s = .next { s with est := e, pid := p, flags := f } := by
  obtain ⟨-, h⟩ | ⟨-, p, f, -, -, -, h⟩ := execPidstep_cases s <;> exact ⟨_, _, _, h⟩

theorem execEdge_frame (s : State) : ∃ x d o e b f,
    execEdge s = .next { s with sensor := x, driveState := d, out := o, est := e, budget := b, flags := f } := by
  obtain ⟨-, h⟩ | ⟨-, -, -, h⟩ | ⟨-, -, -, -, h⟩ | ⟨-, -, -, -, -, h⟩ := execEdge_cases s
  · exact ⟨_, _, _, _, _, _, h⟩
  · exact ⟨_, _, _, _, _, _, h⟩
  · exact ⟨_, _, _, _, _, _, h⟩
  · obtain ⟨e, b, f, hb⟩ := execBookkeep_frame (decodeSample s.env.pins.hall).state
      (commutateTo (decodeSample s.env.pins.hall).state (tracked s))
    exact ⟨_, _, _, _, _, _, h.trans hb⟩

/-! ### Time and inputs stand still until the tick -/

/-- From `s` to `t` the time base and the environment stand. -/
def SameClock (s t : State) : Prop := t.now = s.now ∧ t.env = s.env

theorem SameClock.refl (s : State) : SameClock s s := ⟨rfl, rfl⟩

theorem SameClock.trans {u : State} (h : SameClock s t) (h' : SameClock t u) : SameClock s u :=
  ⟨h'.1.trans h.1, h'.2.trans h.2⟩

theorem execOncommit_sameClock (ht : execOncommit s = .next t) : SameClock s t :=
  next_unique rfl ht ▸ ⟨rfl, rfl⟩

theorem execHoming_sameClock (ht : execHoming s = .next t) : SameClock s t := by
  obtain ⟨_, _, h⟩ := execHoming_frame s
  exact next_unique h ht ▸ ⟨rfl, rfl⟩

theorem execEdge_sameClock (ht : execEdge s = .next t) : SameClock s t := by
  obtain ⟨_, _, _, _, _, _, h⟩ := execEdge_frame s
  exact next_unique h ht ▸ ⟨rfl, rfl⟩

theorem execPidstep_sameClock (ht : execPidstep s = .next t) : SameClock s t := by
  obtain ⟨_, _, _, h⟩ := execPidstep_frame s
  exact next_unique h ht ▸ ⟨rfl, rfl⟩

theorem kickFrom_sameClock (hall : Sample) (s : State) : SameClock s (kickFrom hall s) := by
  obtain ⟨-, h⟩ | ⟨-, h⟩ := kickFrom_cases hall s <;> exact h ▸ ⟨rfl, rfl⟩

theorem exec_command_sameClock (c : Command) (ht : exec c.toInstr s = .next t) : SameClock s t := by
  cases c with
  | start rot vel =>
    have hload : SameClock s (sessionStarted rot vel s) := ⟨rfl, rfl⟩
    obtain rfl := next_unique (startWith_eq _ rot vel s) ht
    split
    · exact hload.trans (kickFrom_sameClock _ _)
    · exact hload
  | wrcfg i v => cases i <;> exact next_unique rfl ht ▸ ⟨rfl, rfl⟩
  | nop | home | clrf | rsv5 | rsv6 | rsv7 => exact next_unique rfl ht ▸ ⟨rfl, rfl⟩

theorem execCmd_sameClock (ht : execCmd s = .next t) : SameClock s t :=
  exec_command_sameClock _ ((execCmd_eq s).symm.trans ht)

/-! ### The phases of a step -/

/-- The states `s1` to `s5` that the phases P1 to P5 of a step from `s` reach in turn. The command's guard is that of the state the
cycle began in (R113). -/
structure PhaseRun (s s1 s2 s3 s4 s5 : State) : Prop where
  oncommit : phase s.out.onPend .oncommit (present s) = .next s1
  homing : phase s1.align.homing .homing s1 = .next s2
  edge : phase (s2.env.pins.hall != s2.sensor.hallQ) .edge s2 = .next s3
  pidstep : phase s3.est.velPending .pidstep s3 = .next s4
  cmd : phase ((nextPins s).cmdValid && !s.align.homing) .cmd s4 = .next s5

section
variable {s1 s2 s3 s4 s5 : State}

theorem PhaseRun.sameClock_early (run : PhaseRun s s1 s2 s3 s4 s5) : SameClock (present s) s4 :=
  (((phase_rel run.oncommit (.refl _) execOncommit_sameClock).trans
    (phase_rel run.homing (.refl _) execHoming_sameClock)).trans
    (phase_rel run.edge (.refl _) execEdge_sameClock)).trans
    (phase_rel run.pidstep (.refl _) execPidstep_sameClock)

theorem PhaseRun.sameClock (run : PhaseRun s s1 s2 s3 s4 s5) : SameClock (present s) s5 :=
  run.sameClock_early.trans (phase_rel run.cmd (.refl _) execCmd_sameClock)

theorem PhaseRun.earlyPhases_eq (run : PhaseRun s s1 s2 s3 s4 s5) : earlyPhases (present s) = .next s4 := by
  simp only [earlyPhases, present_out, run.oncommit, run.homing, run.edge, run.pidstep, andThen_next]

/-- A step without reset is its phases and one tick. -/
theorem PhaseRun.step_eq (run : PhaseRun s s1 s2 s3 s4 s5) (hr : (nextPins s).rst = false) :
    step s = .next { s5 with now := s5.now + 1 } := by
  have hcmd : phase (s4.env.pins.cmdValid && cmdReady (present s)) .cmd s4 = .next s5 := by
    rw [run.sameClock_early.2, present_env_pins, cmdReady, present_align]
    exact run.cmd
  have hrst : ¬(present s).env.pins.rst = true := by rw [present_env_pins, hr]; decide
  rw [step, cycle, if_neg hrst, run.earlyPhases_eq, andThen_next, hcmd]
  rfl

end

theorem phase_total (c : Bool) (i : Instr) (s : State) : ∃ t, phase c i s = .next t := by
  cases c with
  | true => exact exec_total i s
  | false => exact ⟨s, rfl⟩

theorem exists_phaseRun (s : State) : ∃ s1 s2 s3 s4 s5, PhaseRun s s1 s2 s3 s4 s5 := by
  obtain ⟨s1, h1⟩ := phase_total s.out.onPend .oncommit (present s)
  obtain ⟨s2, h2⟩ := phase_total s1.align.homing .homing s1
  obtain ⟨s3, h3⟩ := phase_total (s2.env.pins.hall != s2.sensor.hallQ) .edge s2
  obtain ⟨s4, h4⟩ := phase_total s3.est.velPending .pidstep s3
  obtain ⟨s5, h5⟩ := phase_total ((nextPins s).cmdValid && !s.align.homing) .cmd s4
  exact ⟨s1, s2, s3, s4, s5, h1, h2, h3, h4, h5⟩

theorem step_of_rst (hr : (nextPins s).rst = true) : step s = .next { State.reset with env := (present s).env } :=
  cycle_of_rst hr

theorem step_total (s : State) : ∃ t, step s = .next t := by
  cases hr : (nextPins s).rst with
  | true => exact ⟨_, step_of_rst hr⟩
  | false =>
    obtain ⟨_, _, _, _, _, run⟩ := exists_phaseRun s
    exact ⟨_, run.step_eq hr⟩

/-! ### What a step makes of time and inputs -/

/-- A step takes the inputs of its cycle, and no more of the stimulus. -/
theorem step_env (ht : step s = .next t) : t.env = (present s).env := by
  cases hr : (nextPins s).rst with
  | true => exact next_unique (step_of_rst hr) ht ▸ rfl
  | false =>
    obtain ⟨_, _, _, _, _, run⟩ := exists_phaseRun s
    obtain ⟨-, henv⟩ := run.sameClock
    exact next_unique (run.step_eq hr) ht ▸ henv

/-- A step without reset counts one cycle (R160). -/
theorem step_now (hr : (nextPins s).rst = false) (ht : step s = .next t) : t.now = s.now + 1 := by
  obtain ⟨_, _, _, _, _, run⟩ := exists_phaseRun s
  obtain ⟨hnow, -⟩ := run.sameClock
  obtain rfl := next_unique (run.step_eq hr) ht
  exact congrArg (· + 1) (hnow.trans (present_now s))

theorem step_withScript_script {p : Pins} {ps : List Pins} (ht : step (withScript s (p :: ps)) = .next t) : t.env.script = ps := by
  rw [step_env ht, present_withScript_cons]

theorem withScript_of_script_eq {ps : List Pins} (h : s.env.script = ps) : withScript s ps = s := by
  subst h; rfl

end

/-- A phase as a conditional (R110). -/
theorem phase_eq_next_iff_ite {c : Bool} {i : Instr} {s t : State} :
    phase c i s = .next t ↔ if c = true then exec i s = .next t else t = s := by
  cases c <;> simp [phase, eq_comm]

/-- Settles O49. -/
theorem stepIsTotal : Obligations.StepIsTotal := step_total

/-- Settles O48: no phase before the tick moves the inputs. -/
theorem cycleRunsItsPhasesInOrder : Obligations.CycleRunsItsPhasesInOrder := by
  intro s hr
  obtain ⟨s1, s2, s3, s4, s5, run⟩ := exists_phaseRun s
  refine ⟨s1, s2, s3, s4, s5, phase_eq_next_iff_ite.mp run.oncommit, phase_eq_next_iff_ite.mp run.homing, ?_,
    phase_eq_next_iff_ite.mp run.pidstep, ?_, (run.step_eq hr).symm, run.sameClock.2⟩
  · simpa only [bne_iff_ne] using phase_eq_next_iff_ite.mp run.edge
  · simpa only [Bool.and_eq_true, Bool.not_eq_true'] using phase_eq_next_iff_ite.mp run.cmd

/-- A decoded command has operands the spec gives it: a reserved index is above the named ones (R92). -/
theorem wellFormed_decodeWord (w : CmdWord) : WellFormed (decodeWord w) = true := by
  have cfgIndexOf_ok : ∀ i : BitVec 4, cfgIndexOk (cfgIndexOf i) = true := by decide
  unfold decodeWord decodeCommand
  -- Of the rows, WRCFG's alone (`op` 3, the fourth) has an operand with a condition.
  split
  case h_4 => exact cfgIndexOf_ok _
  all_goals rfl

/-- Settles O47: the command phase of a step that accepts a command is CMD, which runs the word's row. -/
theorem stepRunsTheDecodedCommand : Obligations.StepRunsTheDecodedCommand := by
  rintro s i ⟨hr, hvalid, hhoming, rfl⟩
  obtain ⟨s1, s2, s3, s4, s5, run⟩ := exists_phaseRun s
  have hcmd : execCmd s4 = .next s5 := by
    have h := run.cmd
    rwa [hvalid, hhoming] at h
  rw [execCmd_eq, run.sameClock_early.2, present_env_pins] at hcmd
  exact ⟨wellFormed_decodeWord _, s4, s5, run.earlyPhases_eq, hcmd, run.step_eq hr⟩

/-- Settles O59, by induction on the stimulus. -/
theorem nowCountsCycles : Obligations.NowCountsCycles := by
  intro s ps rest hps
  induction ps generalizing s with
  | nil => exact ⟨withScript s rest, rfl, (Nat.mod_eq_of_lt s.now.isLt).symm, rfl⟩
  | cons p ps ih =>
    obtain ⟨hp, hps⟩ := List.forall_mem_cons.mp hps
    obtain ⟨t, ht⟩ := step_total (withScript s (p :: (ps ++ rest)))
    have hnow : t.now = s.now + 1 := step_now (s := withScript s (p :: (ps ++ rest))) hp ht
    obtain ⟨u, hu, hcount, hscript⟩ := ih t hps
    rw [withScript_of_script_eq (step_withScript_script ht)] at hu
    refine ⟨u, ?_, ?_, hscript⟩
    · rw [List.length_cons, List.cons_append, runSteps_succ, ht, andThen_next, hu]
    · rw [hcount, hnow, List.length_cons, BitVec.toNat_add]
      simp only [BitVec.ofNat_eq_ofNat, BitVec.toNat_ofNat]
      omega

end Sys2Proof.Machine
end

section
/-! Of the inputs an operation other than CMD reads the sample alone: a change of the other inputs commutes with it. A cycle that begins
in Homing mode runs no CMD, so its command port has no effect (R113). -/
namespace Sys2Proof.Machine

/-- The answer with another environment. -/
def setEnv (e : Env) : Result → Result
  | .next t => .next { t with env := e }
  | r => r

/-! ### How operations that commute with a change of environment are put together -/

section
variable {e : Env}

theorem setEnv_withQuotient (q : Option NumWord) (g : NumWord → Result) :
    setEnv e (withQuotient q g) = withQuotient q fun v => setEnv e (g v) := by
  cases q <;> rfl

theorem andThen_setEnv {r : Result} {g : State → Result} (hg : ∀ t, r = .next t → g { t with env := e } = setEnv e (g t)) :
    andThen (setEnv e r) g = setEnv e (andThen r g) := by
  cases r with
  | next t => exact hg t rfl
  | fault | refused => rfl

/-! ### The operations of the phases P1 to P4 -/

theorem execBudget_setEnv (a : RotorState) (s : State) : execBudget a { s with env := e } = setEnv e (execBudget a s) := by
  simp only [execBudget, apply_ite (setEnv e), setEnv_withQuotient]
  rfl

theorem execRefvisit_setEnv (s : State) : execRefvisit { s with env := e } = setEnv e (execRefvisit s) := by
  simp only [execRefvisit, refVisitWith, apply_ite (setEnv e), setEnv_withQuotient]
  rfl

theorem execBookkeep_setEnv (st : RotorState) (s : State) :
    execBookkeep st { s with env := e } = setEnv e (execBookkeep st s) := by
  have hvisit (c : Prop) [Decidable c] : (if c then execRefvisit { s with env := e } else .next { s with env := e }) =
      setEnv e (if c then execRefvisit s else .next s) := by
    rw [execRefvisit_setEnv, apply_ite (setEnv e)]
    rfl
  simp only [execBookkeep, hvisit]
  exact andThen_setEnv fun t _ => execBudget_setEnv _ t

theorem execPid_setEnv (s : State) : execPid { s with env := e } = setEnv e (execPid s) := by
  simp only [execPid, apply_ite (setEnv e), setEnv_withQuotient]
  rfl

theorem execPidstep_setEnv (s : State) : execPidstep { s with env := e } = setEnv e (execPidstep s) := by
  by_cases h : s.est.pidCnt = 0
  · simp only [execPidstep, if_pos h, execPid_setEnv]
    exact andThen_setEnv fun _ _ => rfl
  · simp only [execPidstep, if_neg h]
    rfl

variable {s : State}

theorem execHoming_setEnv (hhall : e.pins.hall = s.env.pins.hall) :
    execHoming { s with env := e } = setEnv e (execHoming s) := by
  simp only [execHoming, hhall, apply_ite (setEnv e)]
  rfl

theorem execEdge_setEnv (hhall : e.pins.hall = s.env.pins.hall) : execEdge { s with env := e } = setEnv e (execEdge s) := by
  have hbook : andThen (execCommutate (decodeSample s.env.pins.hall).state { tracked s with env := e })
      (execBookkeep (decodeSample s.env.pins.hall).state) =
      setEnv e (andThen (execCommutate (decodeSample s.env.pins.hall).state (tracked s))
        (execBookkeep (decodeSample s.env.pins.hall).state)) :=
    execBookkeep_setEnv _ (commutateTo _ (tracked s))
  simp only [tracked] at hbook
  simp only [execEdge, hhall, hbook, apply_ite (setEnv e)]
  rfl

/-! ### The cycle -/

theorem phase_setEnv {c : Bool} {i : Instr} (hi : exec i { s with env := e } = setEnv e (exec i s)) :
    phase c i { s with env := e } = setEnv e (phase c i s) := by
  cases c with
  | true => exact hi
  | false => rfl

theorem earlyPhases_setEnv (hhall : e.pins.hall = s.env.pins.hall) :
    earlyPhases { s with env := e } = setEnv e (earlyPhases s) := by
  unfold earlyPhases
  dsimp only
  rw [phase_setEnv (i := .oncommit) rfl]
  refine andThen_setEnv fun s1 h1 => ?_
  have clock1 : SameClock s s1 := phase_rel h1 (.refl _) execOncommit_sameClock
  have hhall1 : e.pins.hall = s1.env.pins.hall := by rw [hhall, clock1.2]
  dsimp only
  rw [phase_setEnv (i := .homing) (execHoming_setEnv hhall1)]
  refine andThen_setEnv fun s2 h2 => ?_
  have clock2 : SameClock s1 s2 := phase_rel h2 (.refl _) execHoming_sameClock
  have hhall2 : e.pins.hall = s2.env.pins.hall := by rw [hhall1, clock2.2]
  dsimp only
  rw [hhall2, phase_setEnv (i := .edge) (execEdge_setEnv hhall2)]
  exact andThen_setEnv fun s3 _ => phase_setEnv (execPidstep_setEnv s3)

/-- A cycle that begins in Homing mode reads the reset pin and the sample alone. -/
theorem cycle_setEnv_of_homing (hhoming : s.align.homing = true) (hrst : e.pins.rst = s.env.pins.rst)
    (hhall : e.pins.hall = s.env.pins.hall) : cycle { s with env := e } = setEnv e (cycle s) := by
  have hready : cmdReady s = false := by rw [cmdReady, hhoming]; rfl
  have hready' : cmdReady { s with env := e } = false := hready
  simp only [cycle, hrst, hready, hready', Bool.and_false, earlyPhases_setEnv hhall, apply_ite (setEnv e)]
  rw [andThen_setEnv fun _ _ => rfl]
  rfl

end

/-- Settles O58. -/
theorem commandsDuringHomingAreLost : Obligations.CommandsDuringHomingAreLost := by
  intro s p ps valid word hhoming
  obtain ⟨t, ht⟩ := step_total (withScript s (p :: ps))
  refine ⟨t, ht, ?_⟩
  have henv : t.env = { s.env with pins := p, script := ps } := by rw [step_env ht, present_withScript_cons]
  have hcycle := cycle_setEnv_of_homing (s := present (withScript s (p :: ps)))
    (e := { t.env with pins := { p with cmdValid := valid, cmd := word } }) hhoming rfl rfl
  rw [show cycle _ = _ from ht, henv] at hcycle
  rw [henv]
  exact hcycle

end Sys2Proof.Machine
end

section
/-! A sensor edge in Tracking mode reaches the pins in two cycles (R111, R290): its cycle commutates onto the pending pattern, the next one
turns the pattern on. -/
namespace Sys2Proof.Machine

/-! ### The state after P1 -/

/-- What is pending is on (R126). -/
def committed (s : State) : State := if s.out.onPend = true then turnOn s else s

theorem oncommitPhase_eq (s : State) : phase s.out.onPend .oncommit s = .next (committed s) := by
  unfold phase committed
  split <;> rfl

theorem committed_of_onPend {s : State} (h : s.out.onPend = true) : committed s = turnOn s := if_pos h

@[simp] theorem committed_sensor (s : State) : (committed s).sensor = s.sensor := by unfold committed; split <;> rfl
@[simp] theorem committed_align (s : State) : (committed s).align = s.align := by unfold committed; split <;> rfl
@[simp] theorem committed_dir (s : State) : (committed s).dir = s.dir := by unfold committed; split <;> rfl
@[simp] theorem committed_pid (s : State) : (committed s).pid = s.pid := by unfold committed; split <;> rfl
@[simp] theorem committed_budget (s : State) : (committed s).budget = s.budget := by unfold committed; split <;> rfl
@[simp] theorem committed_cfg (s : State) : (committed s).cfg = s.cfg := by unfold committed; split <;> rfl
@[simp] theorem committed_env (s : State) : (committed s).env = s.env := by unfold committed; split <;> rfl

theorem committed_outLegs (s : State) :
    (committed s).out.outLegs = if s.out.onPend = true then s.out.pendPat else s.out.outLegs := by
  unfold committed; split <;> rfl

/-! ### The values of a commutation -/

theorem dutyEff_eq (s : State) : dutyEff s = wordOf (unitInt (s.pid.duty.toInt * s.budget.prof.toInt / 65536)) := by
  rw [dutyEff, clamp01_eq, numMul_toInt, unitInt_satInt]

/-! ### Steps without a command -/

section
variable {s t : State}

/-- Outside Homing mode and without a command, the outputs, the tracked sample and the alignment after a step are what P1 and P3 make of
them: P4 and the tick leave them alone. -/
theorem step_of_no_command (hh : s.align.homing = false) (hr : (nextPins s).rst = false) (hc : (nextPins s).cmdValid = false)
    (ht : step s = .next t) :
    ∃ u, phase ((nextPins s).hall != s.sensor.hallQ) .edge (committed (present s)) = .next u ∧
      t.out = u.out ∧ t.sensor = u.sensor ∧ t.align = u.align := by
  obtain ⟨s1, s2, s3, s4, s5, run⟩ := exists_phaseRun s
  obtain rfl := next_unique (run.step_eq hr) ht
  obtain rfl : s1 = committed (present s) :=
    next_unique (by rw [← present_out]; exact oncommitPhase_eq (present s)) run.oncommit
  obtain rfl : s2 = committed (present s) := next_unique (by rw [committed_align, present_align, hh]; rfl) run.homing
  obtain rfl : s5 = s4 := next_unique (by rw [hc]; rfl) run.cmd
  have hpid : s5.out = s3.out ∧ s5.sensor = s3.sensor ∧ s5.align = s3.align :=
    phase_rel (R := fun s t => t.out = s.out ∧ t.sensor = s.sensor ∧ t.align = s.align) run.pidstep ⟨rfl, rfl, rfl⟩ fun h => by
      obtain ⟨_, _, _, hp⟩ := execPidstep_frame s3
      exact next_unique hp h ▸ ⟨rfl, rfl, rfl⟩
  have hedge := run.edge
  rw [committed_env, present_env_pins, committed_sensor, present_sensor] at hedge
  exact ⟨s3, hedge, hpid⟩

/-- Without an edge P1 alone writes the outputs. -/
theorem step_out_of_no_edge (hh : s.align.homing = false) (hr : (nextPins s).rst = false) (hc : (nextPins s).cmdValid = false)
    (hhall : (nextPins s).hall = s.sensor.hallQ) (ht : step s = .next t) : t.out = (committed (present s)).out := by
  obtain ⟨u, hu, hout, -⟩ := step_of_no_command hh hr hc ht
  obtain rfl := next_unique (by rw [hhall, bne_self_eq_false]; rfl) hu
  exact hout

/-- A changed valid sample commutates in Tracking mode (R140); the bookkeeping after it leaves the outputs alone. -/
theorem step_of_tracking_edge (hmode : modeOf s = .tracking) (hr : (nextPins s).rst = false) (hc : (nextPins s).cmdValid = false)
    (hhall : (nextPins s).hall ≠ s.sensor.hallQ) (hv : (decodeSample (nextPins s).hall).valid = true)
    (hne : (decodeSample (nextPins s).hall).state ≠ s.sensor.rotorPrev) (ht : step s = .next t) :
    t.out = (commutateTo (decodeSample (nextPins s).hall).state (tracked (committed (present s)))).out ∧
      t.sensor.hallQ = (nextPins s).hall ∧ t.align = s.align := by
  obtain ⟨hh, hhomed, hd⟩ := modeOf_eq_tracking_iff.mp hmode
  obtain ⟨u, hu, hout, hsensor, halign⟩ := step_of_no_command hh hr hc ht
  have hpins : (committed (present s)).env.pins = nextPins s := by rw [committed_env, present_env_pins]
  have hedge : execEdge (committed (present s)) = .next u := by rwa [bne_iff_ne.mpr hhall] at hu
  rw [hout, hsensor, halign]
  obtain ⟨h, -⟩ | ⟨-, -, h, -⟩ | ⟨-, -, -, h, -⟩ | ⟨-, -, -, -, -, h⟩ := execEdge_cases (committed (present s))
  · simp [hh, hhomed] at h
  · simp [hv] at h
  · simp [hne, hd] at h
  · obtain ⟨e, b, f, hbook⟩ := execBookkeep_frame (decodeSample (nextPins s).hall).state
      (commutateTo (decodeSample (nextPins s).hall).state (tracked (committed (present s))))
    rw [hpins] at h
    obtain rfl := next_unique (h.trans hbook) hedge
    refine ⟨rfl, ?_, ?_⟩
    · exact congrArg Pins.hall hpins
    · exact (committed_align _).trans (present_align s)

end

/-- Settles O60: the edge's cycle leaves the new pattern pending, and the next cycle has no edge of its own. -/
theorem edgeReachesThePinsInTwoCycles : Obligations.EdgeReachesThePinsInTwoCycles := by
  intro s p q rest hmode hpr hpc hhall hv hne hqr hqc hqhall
  obtain ⟨t, ht⟩ := step_total (withScript s (p :: q :: rest))
  obtain ⟨u, hu⟩ := step_total t
  obtain ⟨hout, hsample, halign⟩ := step_of_tracking_edge (s := withScript s (p :: q :: rest)) hmode hpr hpc hhall hv hne ht
  have hq : nextPins t = q := by
    rw [← withScript_of_script_eq (step_withScript_script ht), nextPins_withScript_cons]
  have hh : t.align.homing = false := by rw [halign]; exact (modeOf_eq_tracking_iff.mp hmode).1
  have hout' : u.out = (committed (present t)).out :=
    step_out_of_no_edge hh (hq ▸ hqr) (hq ▸ hqc) (by rw [hq, hqhall, hsample]; rfl) hu
  rw [committed_of_onPend (by rw [present_out, hout]; rfl)] at hout'
  refine ⟨t, u, commandedState (tracked (committed (present (withScript s (p :: q :: rest))))) (decodeSample p.hall).state,
    ht, hu, ?_, ?_, ?_, ?_⟩
  · rw [commandedState_toNat]
    simp [tracked, leadInt]
  · rw [drvOn, hout, commutateTo_out_outLegs]
    simp [tracked, committed_outLegs]
  · rw [drvOn, hout', turnOn_out_outLegs, present_out, hout]
    rfl
  · rw [hout', turnOn_out_outDuty, present_out, hout, commutateTo_out_pendDuty, dutyEff_eq]
    simp [tracked]

end Sys2Proof.Machine
end

section
/-! The decoder and the drivers (R120 to R129): DECODE gives validity and state, DRIVE turns drivers off, ONCOMMIT turns them on. -/
namespace Sys2Proof.Machine

/-! ### DECODE -/

/-- An Invalid sample decodes to the table's own entry 7, so the state is the table's entry for every sample (R83, R120). -/
theorem decodeSample_state (raw : Sample) : (decodeSample raw).state = stateMap raw := by
  unfold decodeSample
  dsimp only
  split
  · exact .symm ‹_›
  · rfl

theorem decodeSample_valid (raw : Sample) : (decodeSample raw).valid = decide (1 ≤ raw.toNat ∧ raw.toNat ≤ 6) := by
  rw [Bool.eq_iff_iff, decide_eq_true_iff]
  exact decodeSample_valid_iff raw

theorem exec_decode (raw : Sample) (s : State) :
    exec (.decode raw) s = .next { s with result := .decoded (decodeSample raw).valid (decodeSample raw).state } := rfl

/-- Settles O5: the validity and the state of the decoded sample, each by its own lemma. -/
theorem decodeGivesValidityAndState : Obligations.DecodeGivesValidityAndState := by
  intro raw s
  rw [exec_decode, decodeSample_valid, decodeSample_state]
  rfl

/-! ### DRIVE and ONCOMMIT -/

theorem exec_drive (d : DriveState) (u : NumWord) (s : State) : exec (.drive d u) s = .next (driveLegs d u s) := rfl

theorem exec_oncommit (s : State) : exec .oncommit s = .next (turnOn s) := rfl

/-- Settles O7: the pattern is the drive table's entry. -/
theorem driveResult : Obligations.DriveResult := fun d u s _ => exec_drive d u s

/-- Settles O8. -/
theorem oncommitResult : Obligations.OncommitResult := exec_oncommit

/-- A driver is on after DRIVE exactly where it was on before and belongs to the new pattern (R125). -/
theorem drvOn_driveLegs_getLsbD (d : DriveState) (u : NumWord) (s : State) (j : Nat) :
    (drvOn (driveLegs d u s)).getLsbD j = ((drvOn s).getLsbD j && (driveTable d).getLsbD j) := by
  rw [drvOn, driveLegs_out_outLegs, BitVec.getLsbD_and, drvOn]

/-- The ONCOMMIT after a DRIVE puts the new pattern on the pins (R126). -/
theorem drvOn_turnOn_driveLegs (d : DriveState) (u : NumWord) (s : State) : drvOn (turnOn (driveLegs d u s)) = driveTable d := by
  rw [drvOn, turnOn_out_outLegs, driveLegs_out_pendPat]

/-- Settles O9: after DRIVE the drivers are the old ones that the new pattern keeps, so each clause is about one conjunction of two
bits. -/
theorem driveTurnsOffBeforeOn : Obligations.DriveTurnsOffBeforeOn := by
  intro d u s _
  refine ⟨_, _, exec_drive d u s, exec_oncommit _, fun j _ => ?_⟩
  rw [drvOn_driveLegs_getLsbD, drvOn_turnOn_driveLegs]
  refine ⟨fun hon => ?nothingTurnsOn, fun hout => ?outsideGoesOff, fun _ hoff => ?insideWaits, rfl⟩
  case nothingTurnsOn => exact (Bool.and_eq_true_iff.mp hon).1
  case outsideGoesOff => rw [hout, Bool.and_false]
  case insideWaits => rw [hoff, Bool.false_and]

end Sys2Proof.Machine
end

section
/-! The operations of commutation and homing (R140 to R150), each with its result in the cases the rules name. -/
namespace Sys2Proof.Machine

/-! ### COMMUTATE -/

theorem exec_commutate (st : RotorState) (s : State) : exec (.commutate st) s = .next (commutateTo st s) := rfl

/-- Settles O11: the drive state and the duty are those of `commutateTo`, whose values the laws give in integers. -/
theorem commutateResult : Obligations.CommutateResult := fun st s _ =>
  ⟨commandedState s st, dutyEff s, commandedState_toNat s st, commandedState_le s st, dutyEff_toInt s, exec_commutate st s⟩

/-! ### EDGE -/

section
variable {s t : State}

theorem exec_edge_before_homing (h : s.align.homed = false ∨ s.align.homing = true) : exec .edge s = .next (tracked s) := by
  obtain ⟨-, he⟩ | ⟨hh, hhomed, -⟩ | ⟨hh, hhomed, -⟩ | ⟨hh, hhomed, -⟩ := execEdge_cases s
  · exact he
  all_goals simp [hh, hhomed] at h

theorem exec_edge_of_invalid (hhomed : s.align.homed = true) (hh : s.align.homing = false)
    (hv : (decodeSample s.env.pins.hall).valid = false) : exec .edge s = .next (raise .invalidSensorReading (tracked s)) := by
  obtain ⟨h, -⟩ | ⟨-, -, -, he⟩ | ⟨-, -, h, -⟩ | ⟨-, -, h, -⟩ := execEdge_cases s
  · simp [hh, hhomed] at h
  · exact he
  all_goals exact absurd (hv.symm.trans h) (by decide)

theorem exec_edge_of_unchanged_or_done (hv : (decodeSample s.env.pins.hall).valid = true)
    (hrest : (decodeSample s.env.pins.hall).state = s.sensor.rotorPrev ∨ s.budget.done = true) :
    exec .edge s = .next (tracked s) := by
  obtain ⟨-, he⟩ | ⟨-, -, h, -⟩ | ⟨-, -, -, -, he⟩ | ⟨-, -, -, hne, hd, -⟩ := execEdge_cases s
  · exact he
  · exact absurd (hv.symm.trans h) (by decide)
  · exact he
  · simp [hne, hd] at hrest

/-- In Tracking mode a changed state is commutated for and booked (R140). -/
theorem exec_edge_of_tracking (hmode : modeOf s = .tracking) (hv : (decodeSample s.env.pins.hall).valid = true)
    (hne : (decodeSample s.env.pins.hall).state ≠ s.sensor.rotorPrev) :
    exec .edge s = exec (.bookkeep (decodeSample s.env.pins.hall).state)
      (commutateTo (decodeSample s.env.pins.hall).state (tracked s)) := by
  obtain ⟨hh, hhomed, hd⟩ := modeOf_eq_tracking_iff.mp hmode
  obtain ⟨h, -⟩ | ⟨-, -, h, -⟩ | ⟨-, -, -, h, -⟩ | ⟨-, -, -, -, -, he⟩ := execEdge_cases s
  · simp [hh, hhomed] at h
  · exact absurd (hv.symm.trans h) (by decide)
  · simp [hne, hd] at h
  · exact he

theorem setFlag_invalidSensorReading (f : BitVec 4) : setFlag f .invalidSensorReading = f ||| 0b0001 := rfl

theorem setFlag_homingFailed (f : BitVec 4) : setFlag f .homingFailed = f ||| 0b0010 := rfl

/-- Settles O12. -/
theorem edgeOnlyTracksSampleBeforeHoming : Obligations.EdgeOnlyTracksSampleBeforeHoming := fun _ => exec_edge_before_homing

/-- Settles O13: raw 0 and 7 are the Invalid samples. -/
theorem edgeOnInvalidSample : Obligations.EdgeOnInvalidSample := fun s hhomed hh hraw => by
  rw [exec_edge_of_invalid hhomed hh ((decodeSample_valid_eq_false_iff _).mpr hraw), ← setFlag_invalidSensorReading]
  rfl

/-- Settles O14: raw 1 to 6 are the valid samples. -/
theorem edgeWithoutChangeOrHeldOnlyTracksSample : Obligations.EdgeWithoutChangeOrHeldOnlyTracksSample :=
  fun _ _ _ hlo hhi => exec_edge_of_unchanged_or_done ((decodeSample_valid_iff _).mpr ⟨hlo, hhi⟩)

/-- Settles O15: the bookkeeping after the commutation completes, and its answer is the EDGE's. -/
theorem edgeCommutatesThenBooks : Obligations.EdgeCommutatesThenBooks := by
  intro s hmode hlo hhi hne
  obtain ⟨u, hu⟩ := exec_total (.bookkeep (decodeSample s.env.pins.hall).state)
    (commutateTo (decodeSample s.env.pins.hall).state (tracked s))
  have hedge := exec_edge_of_tracking hmode ((decodeSample_valid_iff _).mpr ⟨hlo, hhi⟩) hne
  exact ⟨_, u, exec_commutate _ (tracked s), hu, hedge.trans hu⟩

/-! ### HOMING -/

theorem exec_homing_of_settling (hc : s.align.settleCnt ≠ 0) :
    exec .homing s = .next { s with align := { s.align with settleCnt := s.align.settleCnt - 1 } } := by
  obtain ⟨-, he⟩ | ⟨h, -⟩ | ⟨h, -⟩ := execHoming_cases s
  · exact he
  all_goals exact absurd h hc

theorem exec_homing_of_valid (hc : s.align.settleCnt = 0) (hv : (decodeSample s.env.pins.hall).valid = true) :
    exec .homing s = .next { s with align :=
      { s.align with homing := false, homed := true, alignOff := (decodeSample s.env.pins.hall).state } } := by
  obtain ⟨h, -⟩ | ⟨-, -, he⟩ | ⟨-, h, -⟩ := execHoming_cases s
  · exact absurd hc h
  · exact he
  · exact absurd (hv.symm.trans h) (by decide)

theorem exec_homing_of_invalid (hc : s.align.settleCnt = 0) (hv : (decodeSample s.env.pins.hall).valid = false) :
    exec .homing s = .next (raise .homingFailed { s with align := { s.align with homing := false, homeFail := true } }) := by
  obtain ⟨h, -⟩ | ⟨-, h, -⟩ | ⟨-, -, he⟩ := execHoming_cases s
  · exact absurd hc h
  · exact absurd (hv.symm.trans h) (by decide)
  · exact he

end

/-- Settles O16: one clause for each of the three results. -/
theorem homingResult : Obligations.HomingResult := by
  refine fun s => ⟨exec_homing_of_settling, fun hc hlo hhi => ?captures, fun hc hraw => ?fails⟩
  case captures => exact exec_homing_of_valid hc ((decodeSample_valid_iff _).mpr ⟨hlo, hhi⟩)
  case fails =>
    rw [exec_homing_of_invalid hc ((decodeSample_valid_eq_false_iff _).mpr hraw), ← setFlag_homingFailed]
    rfl

end Sys2Proof.Machine
end

section
/-! Runs on placed stimulus, and the homing timeline (R151): HOME loads the settling delay, each cycle takes one from it, and the cycle
that finds it at 0 captures its sample or fails. -/
namespace Sys2Proof.Machine

/-! ### Runs -/

theorem andThen_assoc (r : Result) (f g : State → Result) : andThen (andThen r f) g = andThen r fun s => andThen (f s) g := by
  cases r <;> rfl

theorem runSteps_one (s : State) : runSteps 1 s = step s := by
  obtain ⟨t, ht⟩ := step_total s
  rw [runSteps_succ, ht, andThen_next, runSteps]

theorem runSteps_add (m n : Nat) (s : State) : runSteps (m + n) s = andThen (runSteps m s) (runSteps n) := by
  induction m generalizing s with
  | zero => rw [Nat.zero_add, runSteps, andThen_next]
  | succ m ih =>
    rw [Nat.succ_add, runSteps_succ, runSteps_succ, andThen_assoc]
    exact congrArg (andThen (step s)) (funext ih)

/-- What each cycle of the placed stimulus passes on, the run reaches at the stimulus' end. `I qs` is what holds with the cycles `qs`
still to come. -/
theorem exists_runSteps_of_step {I : List Pins → State → Prop}
    (hstep : ∀ p qs s t, I (p :: qs) s → nextPins s = p → step s = .next t → I qs t) {ps rest : List Pins} {s : State}
    (hscript : s.env.script = ps ++ rest) (hs : I ps s) :
    ∃ t, runSteps ps.length s = .next t ∧ t.env.script = rest ∧ I [] t := by
  induction ps generalizing s with
  | nil => exact ⟨s, rfl, hscript, hs⟩
  | cons p ps ih =>
    have hplaced : withScript s (p :: (ps ++ rest)) = s := withScript_of_script_eq hscript
    obtain ⟨t, ht⟩ := step_total s
    have hpins : nextPins s = p := by rw [← hplaced, nextPins_withScript_cons]
    have hscript' : t.env.script = ps ++ rest := step_withScript_script (hplaced.symm ▸ ht)
    obtain ⟨u, hu, hrest, hI⟩ := ih hscript' (hstep p ps s t hs hpins ht)
    exact ⟨u, by rw [List.length_cons, runSteps_succ, ht, andThen_next, hu], hrest, hI⟩

/-! ### The cycles of a homing -/

/-- The alignment of a homing with `n` settling cycles to come, after a HOME in the alignment `a` (R207). -/
def settlingAlign (a : Alignment) (n : Nat) : Alignment :=
  { a with homing := true, homed := false, homeFail := false, settleCnt := BitVec.ofNat 32 n }

section
variable {s t : State} {a : Alignment}

/-- The phases before a HOME leave the alignment and `SETTLE` alone. -/
theorem step_align_of_home (hacc : Accepts s .home) (ht : step s = .next t) :
    t.align = settlingAlign s.align s.cfg.settle.toNat := by
  obtain ⟨hr, -, hh, -⟩ := id hacc
  obtain ⟨u, v, frame, halign, hcmd, rfl⟩ := step_cases_of_no_rst hr ht
  have hu : u.align = s.align := halign.eq_of_not_homing hh
  have hcfg : u.cfg = s.cfg := frame.cfg.trans (present_cfg s)
  cases hcmd with
  | none hnone => exact absurd hacc (hnone _)
  | ran c hacc' hrun =>
    rw [accepts_unique hacc' hacc] at hrun
    obtain rfl := next_unique rfl hrun
    rw [settlingAlign, BitVec.ofNat_toNat, BitVec.setWidth_eq, ← hu, ← hcfg]
    rfl

theorem step_align_of_settling {n : Nat} (ha : s.align = settlingAlign a (n + 1)) (hn : n + 1 < 2 ^ 32)
    (hr : (nextPins s).rst = false) (ht : step s = .next t) : t.align = settlingAlign a n := by
  obtain ⟨halign, -⟩ := step_of_homing (by rw [ha]; rfl) hr ht
  have hc : BitVec.ofNat 32 (n + 1) ≠ 0 := by
    intro h
    have := congrArg BitVec.toNat h
    simp only [BitVec.toNat_ofNat, Nat.mod_eq_of_lt hn] at this
    cases this
  rw [ha] at halign
  generalize t.align = a' at halign
  cases halign with
  | idle h => cases h
  | settling =>
    have hpred : BitVec.ofNat 32 (n + 1) - 1 = BitVec.ofNat 32 n := by
      rw [BitVec.ofNat_add]; exact BitVec.add_sub_cancel _ _
    simp only [settlingAlign, hpred]
  | captured _ h | failed _ h => exact absurd h hc

/-- The end of the settling delay (R149, R150). -/
theorem step_align_of_settled (ha : s.align = settlingAlign a 0) (hr : (nextPins s).rst = false) (ht : step s = .next t) :
    ((decodeSample (nextPins s).hall).valid = true →
      t.align = { settlingAlign a 0 with homing := false, alignOff := (decodeSample (nextPins s).hall).state, homed := true }) ∧
    ((decodeSample (nextPins s).hall).valid = false → t.align = { settlingAlign a 0 with homing := false, homeFail := true }) := by
  obtain ⟨halign, -⟩ := step_of_homing (by rw [ha]; rfl) hr ht
  rw [ha] at halign
  generalize t.align = a' at halign
  cases halign with
  | idle h => cases h
  | settling _ h => exact absurd rfl h
  | captured _ _ hv => exact ⟨fun _ => rfl, fun h => absurd (hv.symm.trans h) (by decide)⟩
  | failed _ _ hv => exact ⟨fun h => absurd (hv.symm.trans h) (by decide), fun _ => rfl⟩

theorem PhaseRun.oncommit_eq {s1 s2 s3 s4 s5 : State} (run : PhaseRun s s1 s2 s3 s4 s5) : s1 = committed (present s) :=
  next_unique (by rw [← present_out]; exact oncommitPhase_eq (present s)) run.oncommit

/-- A failed homing leaves `ERR_HOME` set: P3 and P4 clear no flag, and no command is accepted in the cycle (R113, R150). -/
theorem step_flag_of_failure (hh : s.align.homing = true) (hc : s.align.settleCnt = 0)
    (hv : (decodeSample (nextPins s).hall).valid = false) (hr : (nextPins s).rst = false) (ht : step s = .next t) :
    t.flags.getLsbD 1 = true := by
  obtain ⟨s1, s2, s3, s4, s5, run⟩ := exists_phaseRun s
  obtain rfl := next_unique (run.step_eq hr) ht
  obtain rfl := run.oncommit_eq
  have hhoming : exec .homing (committed (present s)) = .next s2 := by
    have h := run.homing
    rwa [committed_align, present_align, hh] at h
  have h2 : s2.flags.getLsbD 1 = true := by
    rw [next_unique (exec_homing_of_invalid (by simpa using hc) (by simpa using hv)) hhoming, raise_flags,
      setFlag_homingFailed, BitVec.getLsbD_or]
    exact Bool.or_true _
  have frame3 : PhaseFrame s2 s3 := phase_rel run.edge (.refl s2) fun h => (execEdge_phaseFrame h).1
  have frame4 : PhaseFrame s3 s4 := phase_rel run.pidstep (.refl s3) fun h => (execPidstep_phaseFrame h).1
  obtain rfl : s5 = s4 := next_unique (by rw [hh, Bool.not_true, Bool.and_false]; rfl) run.cmd
  exact frame4.flags 1 (frame3.flags 1 h2)

/-- Settling cycles take one each from the delay, whatever their samples and commands are. -/
theorem exists_runSteps_settling {n : Nat} {waits rest : List Pins} (hscript : s.env.script = waits ++ rest)
    (ha : s.align = settlingAlign a (n + waits.length)) (hn : n + waits.length < 2 ^ 32) (hwaits : ∀ p ∈ waits, p.rst = false) :
    ∃ t, runSteps waits.length s = .next t ∧ t.env.script = rest ∧ t.align = settlingAlign a n := by
  obtain ⟨t, ht, hrest, -, -, halign⟩ := exists_runSteps_of_step
    (I := fun ps u => n + ps.length < 2 ^ 32 ∧ (∀ p ∈ ps, p.rst = false) ∧ u.align = settlingAlign a (n + ps.length))
    (fun p qs u v ⟨hn, hqs, hu⟩ hp hv => by
      obtain ⟨hr, hqs⟩ := List.forall_mem_cons.mp hqs
      rw [List.length_cons, ← Nat.add_assoc] at hn hu
      exact ⟨by omega, hqs, step_align_of_settling hu hn (hp ▸ hr) hv⟩)
    hscript ⟨hn, hwaits, ha⟩
  exact ⟨t, ht, hrest, halign⟩

end

/-- Settles O17: the HOME cycle, then any number of settling cycles, then the cycle that finds the delay at 0. -/
theorem homingTimeline : Obligations.HomingTimeline := by
  intro s first capture waits rest hh hr hvalid hhome hlen hwaits hcr
  obtain ⟨t₀, ht₀⟩ := step_total (withScript s (first :: waits ++ capture :: rest))
  have hscript : t₀.env.script = waits ++ capture :: rest := step_withScript_script ht₀
  have halign : t₀.align = settlingAlign s.align waits.length :=
    hlen ▸ step_align_of_home (s := withScript s (first :: waits ++ capture :: rest)) ⟨hr, hvalid, hh, hhome⟩ ht₀
  have hlt : waits.length < 2 ^ 32 := hlen ▸ s.cfg.settle.isLt
  have settling (k : Nat) (hk : k ≤ waits.length) :
      ∃ u, runSteps k t₀ = .next u ∧ u.env.script = waits.drop k ++ capture :: rest ∧
        u.align = settlingAlign s.align (waits.length - k) := by
    have hkth : (waits.take k).length = k := List.length_take_of_le hk
    have hsum : waits.length - k + k = waits.length := Nat.sub_add_cancel hk
    have run := exists_runSteps_settling (s := t₀) (a := s.align) (n := waits.length - k) (waits := waits.take k)
      (rest := waits.drop k ++ capture :: rest) (by rw [hscript, ← List.append_assoc, List.take_append_drop])
      (by rw [hkth, hsum, halign]) (by rwa [hkth, hsum]) fun p hp => hwaits p (List.mem_of_mem_take hp)
    rwa [hkth] at run
  refine ⟨fun k hk => ?waiting, ?captureCycle⟩
  case waiting =>
    obtain ⟨u, hu, -, hua⟩ := settling k hk
    refine ⟨u, by rw [runSteps_succ, ht₀, andThen_next, hu], by rw [cmdReady, hua]; rfl, ?_⟩
    rw [hua, settlingAlign, BitVec.toNat_ofNat]
    exact Nat.mod_eq_of_lt (by omega)
  case captureCycle =>
    obtain ⟨u, hu, hus, hua⟩ := settling waits.length le_rfl
    rw [List.drop_length, List.nil_append] at hus
    rw [Nat.sub_self] at hua
    have hpins : nextPins u = capture := by rw [← withScript_of_script_eq hus, nextPins_withScript_cons]
    obtain ⟨t, ht⟩ := step_total u
    obtain ⟨hcaptured, hfailed⟩ := step_align_of_settled hua (hpins ▸ hcr) ht
    have hflag := step_flag_of_failure (s := u) (t := t) (by rw [hua]; rfl) (by rw [hua]; rfl)
    rw [hpins] at hcaptured hfailed hflag
    refine ⟨t, ?_, ?_, fun hv => ?_, fun hv => ?_⟩
    · rw [runSteps_succ, ht₀, andThen_next, runSteps_add, hu, andThen_next, runSteps_one, ht]
    · cases hv : (decodeSample capture.hall).valid with
      | true => rw [cmdReady, hcaptured hv]; rfl
      | false => rw [cmdReady, hfailed hv]; rfl
    · rw [hcaptured hv]
      exact ⟨rfl, rfl, rfl⟩
    · rw [hfailed hv]
      exact ⟨rfl, rfl, rfl, hflag hv hcr ht⟩

end Sys2Proof.Machine
end

section
/-! Held mode (R144, R194): after P1 no phase of a quiet cycle moves the drive, and P1 has nothing to do from the second cycle on. -/
namespace Sys2Proof.Machine

/-- From `s` to `t` the drive stands still: outputs, drive state, tracked state, alignment, direction, budget and measured velocity. -/
structure DriveFrozen (s t : State) : Prop where
  driveState : t.driveState = s.driveState
  rotorPrev : t.sensor.rotorPrev = s.sensor.rotorPrev
  align : t.align = s.align
  dir : t.dir = s.dir
  budget : t.budget = s.budget
  velocity : t.est.velocity = s.est.velocity
  tRef : t.est.tRef = s.est.tRef
  out : t.out = s.out

theorem DriveFrozen.refl (s : State) : DriveFrozen s s := ⟨rfl, rfl, rfl, rfl, rfl, rfl, rfl, rfl⟩

theorem DriveFrozen.trans {s t u : State} (h : DriveFrozen s t) (h' : DriveFrozen t u) : DriveFrozen s u where
  driveState := h'.driveState.trans h.driveState
  rotorPrev := h'.rotorPrev.trans h.rotorPrev
  align := h'.align.trans h.align
  dir := h'.dir.trans h.dir
  budget := h'.budget.trans h.budget
  velocity := h'.velocity.trans h.velocity
  tRef := h'.tRef.trans h.tRef
  out := h'.out.trans h.out

section
variable {s t : State}

theorem DriveFrozen.modeOf_eq (h : DriveFrozen s t) : modeOf t = modeOf s := by
  rw [modeOf, modeOf, h.align, h.budget]

/-! ### P1 -/

@[simp] theorem committed_driveState (s : State) : (committed s).driveState = s.driveState := by unfold committed; split <;> rfl
@[simp] theorem committed_est (s : State) : (committed s).est = s.est := by unfold committed; split <;> rfl

theorem committed_out (s : State) : (committed s).out =
    if s.out.onPend = true then { s.out with outLegs := s.out.pendPat, outDuty := s.out.pendDuty, onPend := false } else s.out := by
  unfold committed; split <;> rfl

theorem committed_out_onPend (s : State) : (committed s).out.onPend = false := by
  rw [committed_out]
  split
  · rfl
  · exact Bool.eq_false_iff.mpr ‹_›

theorem committed_of_not_onPend (h : s.out.onPend = false) : committed s = s := if_neg (by rw [h]; decide)

/-- P1 does not look at the inputs. -/
theorem committed_present (s : State) : DriveFrozen (committed s) (committed (present s)) where
  driveState := by simp
  rotorPrev := by simp
  align := by simp
  dir := by simp
  budget := by simp
  velocity := by simp
  tRef := by simp
  out := by simp only [committed_out, present_out]

theorem modeOf_committed (s : State) : modeOf (committed s) = modeOf s := by
  rw [modeOf, modeOf, committed_align, committed_budget]

/-! ### The later phases -/

/-- With the budget done an EDGE takes the sample and sets at most a flag (R144). -/
theorem execEdge_driveFrozen (hd : s.budget.done = true) (ht : execEdge s = .next t) : DriveFrozen s t := by
  obtain ⟨-, he⟩ | ⟨-, -, -, he⟩ | ⟨-, -, -, -, he⟩ | ⟨-, -, -, -, hlive, -⟩ := execEdge_cases s
  · exact next_unique he ht ▸ { DriveFrozen.refl s with }
  · exact next_unique he ht ▸ { DriveFrozen.refl s with }
  · exact next_unique he ht ▸ { DriveFrozen.refl s with }
  · exact absurd (hd.symm.trans hlive) (by decide)

/-- PIDSTEP consumes the estimate, but does not change it (R175). -/
theorem execPidstep_driveFrozen (ht : execPidstep s = .next t) : DriveFrozen s t := by
  obtain ⟨-, hp⟩ | ⟨-, p, f, -, -, -, hp⟩ := execPidstep_cases s
  · exact next_unique hp ht ▸ { DriveFrozen.refl s with }
  · exact next_unique hp ht ▸ { DriveFrozen.refl s with }

/-- Of the commands HOME and START alone act on the drive. -/
theorem exec_command_driveFrozen (c : Command) (hhome : c.toInstr ≠ .home) (hstart : ∀ rot vel, c.toInstr ≠ .start rot vel)
    (ht : exec c.toInstr s = .next t) : DriveFrozen s t := by
  cases c with
  | home => exact absurd rfl hhome
  | start rot vel => exact absurd rfl (hstart rot vel)
  | wrcfg i v => cases i <;> exact next_unique rfl ht ▸ { DriveFrozen.refl s with }
  | nop => exact next_unique rfl ht ▸ .refl s
  | clrf | rsv5 | rsv6 | rsv7 => exact next_unique rfl ht ▸ { DriveFrozen.refl s with }

/-! ### The quiet cycle -/

/-- A quiet cycle in Held mode turns on what is pending, and nothing else moves. -/
theorem step_driveFrozen_of_held (hmode : modeOf s = .held) (hq : Quiet (nextPins s)) (ht : step s = .next t) :
    DriveFrozen (committed s) t := by
  obtain ⟨hh, -, hd⟩ := modeOf_eq_held_iff.mp hmode
  obtain ⟨hr, hcmd⟩ := hq
  obtain ⟨s1, s2, s3, s4, s5, run⟩ := exists_phaseRun s
  obtain rfl := next_unique (run.step_eq hr) ht
  obtain rfl := run.oncommit_eq
  obtain rfl : s2 = committed (present s) := next_unique (by rw [committed_align, present_align, hh]; rfl) run.homing
  have frozen3 : DriveFrozen (committed (present s)) s3 :=
    phase_rel run.edge (.refl _) (execEdge_driveFrozen (by simpa using hd))
  have frozen4 : DriveFrozen s3 s4 := phase_rel run.pidstep (.refl _) execPidstep_driveFrozen
  have frozen5 : DriveFrozen s4 s5 := by
    obtain ⟨hc, he⟩ | ⟨-, rfl⟩ := phase_eq_next.mp run.cmd
    · obtain ⟨hhome, hstart⟩ := hcmd (Bool.and_eq_true_iff.mp hc).1
      have hrun : execCmd s4 = .next s5 := he
      rw [execCmd_eq, run.sameClock_early.2, present_env_pins] at hrun
      exact exec_command_driveFrozen _ hhome hstart hrun
    · exact .refl _
  exact { (((committed_present s).trans frozen3).trans frozen4).trans frozen5 with }

/-- After one quiet cycle in Held mode nothing is pending, so the next one only adds to what stands still. -/
theorem DriveFrozen.step_of_held {u : State} (h : DriveFrozen (committed s) t) (hmode : modeOf s = .held)
    (hq : Quiet (nextPins t)) (hu : step t = .next u) : DriveFrozen (committed s) u := by
  have hmode' : modeOf t = .held := by rw [h.modeOf_eq, modeOf_committed, hmode]
  have hpend : t.out.onPend = false := by rw [h.out, committed_out_onPend]
  have hnext := step_driveFrozen_of_held hmode' hq hu
  rw [committed_of_not_onPend hpend] at hnext
  exact h.trans hnext

end

/-- Settles O57: the first quiet cycle turns on what is pending, and each later one keeps what the first one left. -/
theorem heldFreezesTheDrive : Obligations.HeldFreezesTheDrive := by
  intro s ps rest hmode hps
  cases ps with
  | nil => exact ⟨withScript s rest, rfl, hmode, rfl, rfl, rfl, rfl, rfl, rfl, rfl, fun h => absurd rfl h⟩
  | cons p ps =>
    obtain ⟨hp, hps⟩ := List.forall_mem_cons.mp hps
    obtain ⟨t, ht⟩ := step_total (withScript s (p :: (ps ++ rest)))
    have hfirst : DriveFrozen (committed (withScript s (p :: (ps ++ rest)))) t := step_driveFrozen_of_held hmode hp ht
    obtain ⟨u, hu, -, -, frozen⟩ := exists_runSteps_of_step
      (I := fun qs v => (∀ q ∈ qs, Quiet q) ∧ DriveFrozen (committed (withScript s (p :: (ps ++ rest)))) v)
      (fun q qs v w ⟨hqs, hv⟩ hpins hw => by
        obtain ⟨hq, hqs⟩ := List.forall_mem_cons.mp hqs
        exact ⟨hqs, hv.step_of_held hmode (hpins ▸ hq) hw⟩)
      (step_withScript_script ht) ⟨hps, hfirst⟩
    have hrun : runSteps (ps.length + 1) (withScript s (p :: (ps ++ rest))) = .next u := by
      rw [runSteps_succ, ht, andThen_next, hu]
    refine ⟨u, hrun, by rw [frozen.modeOf_eq, modeOf_committed]; exact hmode, ?_⟩
    exact ⟨by simpa using frozen.driveState, by simpa using frozen.rotorPrev, by simpa using frozen.align,
      by simpa using frozen.dir, by simpa using frozen.budget, by simpa using frozen.velocity, by simpa using frozen.tRef,
      fun _ => frozen.out.trans (committed_out _)⟩

end Sys2Proof.Machine
end

section
/-! The time base and the estimator (R160 to R171): TICK, the four cases of REFVISIT and the velocity it publishes, BOOKKEEP, and the
cycles that measure nothing. -/
namespace Sys2Proof.Machine

/-! ### TICK -/

theorem exec_tick (s : State) : exec .tick s = .next { s with now := s.now + 1 } := rfl

/-- The time base wraps at `2^32` (R160). -/
theorem ticks_add_one (n : Ticks) : n + 1 = BitVec.ofNat 32 ((n.toNat + 1) % 2 ^ 32) := by
  apply BitVec.eq_of_toNat_eq
  rw [BitVec.toNat_add, BitVec.toNat_ofNat, Nat.mod_mod]
  rfl

/-- Settles O19. -/
theorem tickResult : Obligations.TickResult := fun s => by rw [exec_tick, ticks_add_one]

/-! ### REFVISIT -/

section
variable {s : State}

theorem exec_refvisit_of_unmeasured (hv : s.est.tRefValid = false) :
    exec .refvisit s = .next { s with est := { s.est with tRef := s.now, tRefValid := true } } := by
  obtain ⟨t, ht, ⟨-, rfl⟩ | ⟨h, -⟩ | ⟨h, -⟩ | ⟨h, -⟩⟩ := refVisitWith_cases Config.pidLatency s
  · exact ht
  all_goals exact absurd (hv.symm.trans h) (by decide)

theorem exec_refvisit_of_zero (hv : s.est.tRefValid = true) (h0 : s.now - s.est.tRef = 0) :
    exec .refvisit s = .next (raise .degenerateTimingSample s) := by
  obtain ⟨t, ht, ⟨h, -⟩ | ⟨-, -, rfl⟩ | ⟨-, h, -⟩ | ⟨-, h, -⟩⟩ := refVisitWith_cases Config.pidLatency s
  · exact absurd (hv.symm.trans h) (by decide)
  · exact ht
  all_goals exact absurd h0 h

theorem exec_refvisit_of_unchanged (hv : s.est.tRefValid = true) (h0 : s.now - s.est.tRef ≠ 0)
    (hiv : s.now - s.est.tRef = s.est.lastIv) :
    exec .refvisit s = .next (raise .degenerateTimingSample { s with est := { s.est with tRef := s.now } }) := by
  obtain ⟨t, ht, ⟨h, -⟩ | ⟨-, h, -⟩ | ⟨-, -, -, rfl⟩ | ⟨-, -, h, -⟩⟩ := refVisitWith_cases Config.pidLatency s
  · exact absurd (hv.symm.trans h) (by decide)
  · exact absurd h h0
  · exact ht
  · exact absurd hiv h

/-- The velocity of an interval: its reciprocal in steps of `2^-16` per unit of time, rounded down and saturated (R167). -/
def velocityOf (iv : Ticks) : NumWord := wordOf (satInt ((1000000 * 65536 / iv.toNat : Nat) : Int))

/-- A new interval is published with its velocity (R164, R167). -/
theorem exec_refvisit_of_new (hv : s.est.tRefValid = true) (h0 : s.now - s.est.tRef ≠ 0)
    (hiv : s.now - s.est.tRef ≠ s.est.lastIv) :
    exec .refvisit s =
      .next (publish Config.pidLatency (s.now - s.est.tRef) (velocityOf (s.now - s.est.tRef)) s) := by
  obtain ⟨t, ht, ⟨h, -⟩ | ⟨-, h, -⟩ | ⟨-, -, h, -⟩ | ⟨-, -, -, v, hrecip, -, rfl⟩⟩ := refVisitWith_cases Config.pidLatency s
  · exact absurd (hv.symm.trans h) (by decide)
  · exact absurd h h0
  · exact absurd h hiv
  · obtain rfl : velocityOf (s.now - s.est.tRef) = v := Option.some.inj ((recip_of_ne_zero h0).symm.trans hrecip)
    exact ht

end

/-- The difference of two times is taken modulo `2^32` (R12). -/
theorem ticks_sub_toNat (a b : Ticks) : (a - b).toNat = (a.toNat + 2 ^ 32 - b.toNat) % 2 ^ 32 := by
  rw [BitVec.toNat_sub]
  omega

theorem setFlag_degenerateTimingSample (f : BitVec 4) : setFlag f .degenerateTimingSample = f ||| 0b0100 := rfl

/-- Settles O21: the interval as a number is that of the difference of the two times, and each case has its lemma. -/
theorem refvisitResult : Obligations.RefvisitResult := by
  intro s iv
  have hiv : (s.now - s.est.tRef).toNat = iv := ticks_sub_toNat _ _
  have zero_iff : s.now - s.est.tRef = 0 ↔ iv = 0 := by rw [← BitVec.toNat_inj, hiv]; rfl
  have unchanged_iff : s.now - s.est.tRef = s.est.lastIv ↔ iv = s.est.lastIv.toNat := by rw [← BitVec.toNat_inj, hiv]
  refine ⟨exec_refvisit_of_unmeasured, fun hv h0 => ?zero, fun hv h0 hsame => ?unchanged, fun hv h0 hnew => ?published⟩
  case zero =>
    rw [exec_refvisit_of_zero hv (zero_iff.mpr h0), raise, setFlag_degenerateTimingSample]
  case unchanged =>
    rw [exec_refvisit_of_unchanged hv (mt zero_iff.mp h0) (unchanged_iff.mpr hsame), raise, setFlag_degenerateTimingSample]
  case published =>
    have hword : BitVec.ofNat 32 iv = s.now - s.est.tRef := by rw [← hiv, BitVec.ofNat_toNat, BitVec.setWidth_eq]
    rw [exec_refvisit_of_new hv (mt zero_iff.mp h0) (mt unchanged_iff.mp hnew), velocityOf, hiv, hword]
    simp only [publish, hv]

/-! ### The published velocity -/

theorem velocityOf_toInt (iv : Ticks) : (velocityOf iv).toInt = satInt ((1000000 * 65536 / iv.toNat : Nat) : Int) :=
  wordOf_toInt (satInt_range _).1 (satInt_range _).2

/-- The longest interval still gives 15 steps of `2^-16` (R167, R169). -/
theorem velocityOf_ge {iv : Ticks} (h : iv ≠ 0) : 15 ≤ (velocityOf iv).toInt := by
  have hpos : 0 < iv.toNat := BitVec.toNat_pos_of_ne_zero h
  have hlt := iv.isLt
  have hq : 15 ≤ 1000000 * 65536 / iv.toNat := (Nat.le_div_iff_mul_le hpos).mpr (by omega)
  rw [velocityOf_toInt, satInt]
  omega

/-- The reciprocal reaches `NUM_MAX` up to 30 ticks and no further (R167, R169). -/
theorem velocityOf_eq_max_iff {iv : Ticks} (h : iv ≠ 0) : velocityOf iv = 0x7FFFFFFF ↔ iv.toNat ≤ 30 := by
  have hpos : 0 < iv.toNat := BitVec.toNat_pos_of_ne_zero h
  have hmax : (0x7FFFFFFF : NumWord).toInt = 2147483647 := by decide
  have hq : 2147483647 ≤ 1000000 * 65536 / iv.toNat ↔ iv.toNat ≤ 30 := by
    rw [Nat.le_div_iff_mul_le hpos]
    omega
  rw [← BitVec.toInt_inj, velocityOf_toInt, hmax, ← hq, satInt]
  omega

/-- Settles O22: equal times are the only ones with interval 0, and every other interval has the range of `velocityOf`. -/
theorem publishedVelocityRange : Obligations.PublishedVelocityRange := by
  intro s hv hne hiv
  have h0 : s.now - s.est.tRef ≠ 0 := fun h => hne (sub_eq_zero.mp h)
  exact ⟨_, exec_refvisit_of_new hv h0 hiv, velocityOf_ge h0, velocityOf_eq_max_iff h0⟩

/-! ### BOOKKEEP -/

theorem alignedState_eq_zero_iff (off st : RotorState) :
    alignedState off st = 0 ↔ ((st.toNat : Int) - off.toNat + 6) % 6 = 0 := by
  rw [← alignedState_toNat, ← BitVec.toNat_inj]
  exact Int.natCast_eq_zero.symm

/-- Settles O20: the aligned state is the floored remainder, also in the test that decides on REFVISIT. -/
theorem bookkeepResult : Obligations.BookkeepResult := by
  intro st s _ a
  have h0 : alignedState s.align.alignOff st = 0 ↔ a = 0 := alignedState_eq_zero_iff _ _
  obtain ⟨t, u, hbook, hvisit, hbudget⟩ := execBookkeep_cases st s
  refine ⟨t, u, fun ha => ?_, fun ha => ?_, hbudget, hbook⟩
  · rwa [if_pos (h0.mpr ha)] at hvisit
  · rwa [if_neg (mt h0.mp ha)] at hvisit

/-! ### Cycles that measure nothing (R171) -/

/-- From `s` to `t` the estimator's measurement stands; the estimate may be consumed or discarded. -/
structure MeasurementKept (s t : State) : Prop where
  tRef : t.est.tRef = s.est.tRef
  tRefValid : t.est.tRefValid = s.est.tRefValid
  lastIv : t.est.lastIv = s.est.lastIv
  velocity : t.est.velocity = s.est.velocity
  velTime : t.est.velTime = s.est.velTime

section
variable {s t : State}

theorem MeasurementKept.of_est_eq (h : t.est = s.est) : MeasurementKept s t := by
  constructor <;> rw [h]

theorem MeasurementKept.refl (s : State) : MeasurementKept s s := .of_est_eq rfl

theorem MeasurementKept.trans {u : State} (h : MeasurementKept s t) (h' : MeasurementKept t u) : MeasurementKept s u where
  tRef := h'.tRef.trans h.tRef
  tRefValid := h'.tRefValid.trans h.tRefValid
  lastIv := h'.lastIv.trans h.lastIv
  velocity := h'.velocity.trans h.velocity
  velTime := h'.velTime.trans h.velTime

/-- An EDGE that does not commutate keeps no books: one of its guards stops it (R141, R142, R144). -/
theorem execEdge_est_of_guarded (hguard : s.align.homing = true ∨ s.align.homed = false ∨
    (decodeSample s.env.pins.hall).valid = false ∨ s.budget.done = true) (ht : execEdge s = .next t) : t.est = s.est := by
  obtain ⟨-, he⟩ | ⟨-, -, -, he⟩ | ⟨-, -, -, -, he⟩ | ⟨hh, hhomed, hv, -, hd, -⟩ := execEdge_cases s
  · exact next_unique he ht ▸ rfl
  · exact next_unique he ht ▸ rfl
  · exact next_unique he ht ▸ rfl
  · simp [hh, hhomed, hv, hd] at hguard

/-- PIDSTEP writes of the estimator the countdown and the pending bit alone (R175). -/
theorem execPidstep_measurementKept (ht : execPidstep s = .next t) : MeasurementKept s t := by
  obtain ⟨-, hp⟩ | ⟨-, p, f, -, -, -, hp⟩ := execPidstep_cases s
  · exact next_unique hp ht ▸ ⟨rfl, rfl, rfl, rfl, rfl⟩
  · exact next_unique hp ht ▸ ⟨rfl, rfl, rfl, rfl, rfl⟩

theorem kickFrom_est (hall : Sample) (s : State) : (kickFrom hall s).est = s.est := by
  obtain ⟨-, hk⟩ | ⟨-, hk⟩ := kickFrom_cases hall s
  · rw [hk, commutateTo_est]
  · rw [hk, raise_est]

/-- Of the commands START alone touches the estimator, and it discards a pending estimate without a measurement (R210). -/
theorem exec_command_measurementKept (c : Command) (ht : exec c.toInstr s = .next t) : MeasurementKept s t := by
  cases c with
  | start rot vel =>
    have hload : MeasurementKept s (sessionStarted rot vel s) := ⟨rfl, rfl, rfl, rfl, rfl⟩
    obtain rfl := next_unique (startWith_eq _ rot vel s) ht
    split
    · exact hload.trans (.of_est_eq (kickFrom_est _ _))
    · exact hload
  | wrcfg i v => cases i <;> exact next_unique rfl ht ▸ .of_est_eq rfl
  | nop | home | clrf | rsv5 | rsv6 | rsv7 => exact next_unique rfl ht ▸ .of_est_eq rfl

theorem execCmd_measurementKept (ht : execCmd s = .next t) : MeasurementKept s t :=
  exec_command_measurementKept _ ((execCmd_eq s).symm.trans ht)

/-- Without a capture P2 leaves an alignment in which an EDGE on the same sample is stopped. A failed homing of a state that was homed
all the same is stopped by its Invalid sample. -/
theorem AlignOutcome.stops_edge {hall : Sample} {a a' : Alignment} (h : AlignOutcome hall a a')
    (hidle : a.homing = false → a.homed = false)
    (hhoming : a.homing = true → a.settleCnt ≠ 0 ∨ (decodeSample hall).valid = false) :
    a'.homing = true ∨ a'.homed = false ∨ (decodeSample hall).valid = false := by
  cases h with
  | idle hh => exact .inr (.inl (hidle hh))
  | settling hh => exact .inl hh
  | captured hh hc hv =>
    obtain h | h := hhoming hh
    · exact absurd hc h
    · exact absurd (hv.symm.trans h) (by decide)
  | failed _ _ hv => exact .inr (.inr hv)

/-- What R171 asks of a cycle's beginning: the budget is done, or P3 is stopped whatever P2 does. -/
theorem rests_cases (h : modeOf s = .unhomed ∨ modeOf s = .held ∨ (modeOf s = .homing ∧
      (s.align.settleCnt ≠ 0 ∨ (decodeSample (nextPins s).hall).valid = false ∨ s.budget.done = true))) :
    s.budget.done = true ∨ ((s.align.homing = false → s.align.homed = false) ∧
      (s.align.homing = true → s.align.settleCnt ≠ 0 ∨ (decodeSample (nextPins s).hall).valid = false)) := by
  obtain hmode | hmode | ⟨hmode, hrest⟩ := h
  · obtain ⟨hh, hhomed⟩ := modeOf_eq_unhomed_iff.mp hmode
    exact .inr ⟨fun _ => hhomed, fun h => absurd (hh.symm.trans h) (by decide)⟩
  · obtain ⟨-, -, hd⟩ := modeOf_eq_held_iff.mp hmode
    exact .inl hd
  · have hh := modeOf_eq_homing_iff.mp hmode
    obtain hc | hv | hd := hrest
    · exact .inr ⟨fun h => absurd (hh.symm.trans h) (by decide), fun _ => .inl hc⟩
    · exact .inr ⟨fun h => absurd (hh.symm.trans h) (by decide), fun _ => .inr hv⟩
    · exact .inl hd

/-- P2 leaves the estimator, the budget and the inputs alone (R148). -/
theorem execHoming_keeps_est_budget_env (ht : execHoming s = .next t) : t.est = s.est ∧ t.budget = s.budget ∧ t.env = s.env := by
  obtain ⟨_, _, h⟩ := execHoming_frame s
  exact next_unique h ht ▸ ⟨rfl, rfl, rfl⟩

end

/-- Settles O23: P3 alone measures, and it is stopped by what P2 leaves or by the budget being done. -/
theorem estimatorRestsOutsideTracking : Obligations.EstimatorRestsOutsideTracking := by
  intro s t hrest hr ht
  obtain ⟨s1, s2, s3, s4, s5, run⟩ := exists_phaseRun s
  obtain rfl := next_unique (run.step_eq hr) ht
  obtain rfl := run.oncommit_eq
  obtain ⟨hest, hbudget, henv⟩ : s2.est = s.est ∧ s2.budget = s.budget ∧ s2.env.pins = nextPins s := by
    obtain ⟨he, hb, hn⟩ := phase_rel (R := fun s t => t.est = s.est ∧ t.budget = s.budget ∧ t.env = s.env) run.homing
      ⟨rfl, rfl, rfl⟩ execHoming_keeps_est_budget_env
    exact ⟨by simpa using he, by simpa using hb, by rw [hn, committed_env, present_env_pins]⟩
  have halign : AlignOutcome (nextPins s).hall s.align s2.align := by simpa using homingPhase_align run.homing
  have hguard : s2.align.homing = true ∨ s2.align.homed = false ∨
      (decodeSample s2.env.pins.hall).valid = false ∨ s2.budget.done = true := by
    rw [henv, hbudget]
    obtain hd | ⟨hidle, hhoming⟩ := rests_cases hrest
    · exact .inr (.inr (.inr hd))
    · exact (halign.stops_edge hidle hhoming).imp_right (·.imp_right .inl)
  have kept2 : MeasurementKept s s2 := .of_est_eq hest
  have kept3 : MeasurementKept s2 s3 :=
    phase_rel run.edge (.refl _) fun h => .of_est_eq (execEdge_est_of_guarded hguard h)
  have kept4 : MeasurementKept s3 s4 := phase_rel run.pidstep (.refl _) execPidstep_measurementKept
  have kept5 : MeasurementKept s4 s5 := phase_rel run.cmd (.refl _) execCmd_measurementKept
  have kept : MeasurementKept s s5 := ((kept2.trans kept3).trans kept4).trans kept5
  exact ⟨kept.tRef, kept.tRefValid, kept.lastIv, kept.velocity, kept.velTime⟩

end Sys2Proof.Machine
end

section
/-! The PID controller (R175 to R183): one equation for an evaluation, its values in counts of `2^-16`, and what the first evaluation
of a session can see. -/
namespace Sys2Proof.Machine

/-! ### One evaluation -/

/-- The derivative of an evaluation: 0 for a zero interval, else the rounded and saturated quotient (R178, R180). -/
def pidDerivative (s : State) : NumWord :=
  if pidInterval s = 0 then 0
  else wordOf (satInt ((numSub (pidError s) s.pid.errPrev).toInt * 65536 / (pidInterval s).toInt))

/-- The state whose controller an evaluation writes: a zero interval has raised DegenerateTimingSample (R178). -/
def timingChecked (s : State) : State := if pidInterval s = 0 then raise .degenerateTimingSample s else s

/-- The state PID leaves (R176). -/
def evaluated (s : State) : State := pidCommit (pidError s) (pidIntegral s) (pidDerivative s) (timingChecked s)

theorem pidInterval_toInt (s : State) :
    (pidInterval s).toInt = (((s.est.velTime - s.pid.tPrev).toNat * 65536 / 1000000 : Nat) : Int) := ticks2num_toInt _

theorem pidInterval_eq_zero_iff (s : State) : pidInterval s = 0 ↔ (s.est.velTime - s.pid.tPrev).toNat ≤ 15 :=
  ticks2num_eq_zero_iff _

/-- An interval is never negative, so the floored quotient of R13 is Euclidean division. -/
theorem numDiv_pidInterval {s : State} (h : pidInterval s ≠ 0) :
    numDiv (numSub (pidError s) s.pid.errPrev) (pidInterval s) = some (pidDerivative s) := by
  have hnonneg : 0 ≤ (pidInterval s).toInt := by rw [pidInterval_toInt]; exact Int.natCast_nonneg _
  rw [numDiv_of_ne_zero h, Int.fdiv_eq_ediv_of_nonneg _ hnonneg, pidDerivative, if_neg h]

/-- PID completes on both sides of a zero interval (R176). -/
theorem exec_pid (s : State) : exec .pid s = .next (evaluated s) := by
  obtain ⟨h0, hp⟩ | ⟨h0, deriv, hdiv, hp⟩ := execPid_cases s
  · rw [evaluated, pidDerivative, timingChecked, if_pos h0, if_pos h0]
    exact hp
  · obtain rfl : pidDerivative s = deriv := Option.some.inj ((numDiv_pidInterval h0).symm.trans hdiv)
    rw [evaluated, timingChecked, if_neg h0]
    exact hp

/-! ### Its values in counts of `2^-16` -/

theorem pidError_eq (s : State) : pidError s = wordOf (satInt (s.pid.targetMag.toInt - s.est.velocity.toInt)) := numSub_eq _ _

theorem pidError_toInt (s : State) : (pidError s).toInt = satInt (s.pid.targetMag.toInt - s.est.velocity.toInt) := numSub_toInt _ _

/-- The integral is rounded once, saturated twice and clamped (R179). -/
theorem pidIntegral_eq (s : State) : pidIntegral s = wordOf (max (-s.cfg.iMax.toInt) (min s.cfg.iMax.toInt
    (satInt (s.pid.integ.toInt + satInt ((pidError s).toInt * (pidInterval s).toInt / 65536))))) := by
  rw [pidIntegral, clampI, numAdd_toInt, numMul_toInt, wordOf]

/-- Over a zero interval the integral gains nothing: it is clamped again (R178, R179). -/
theorem pidIntegral_of_zero {s : State} (h : pidInterval s = 0) : pidIntegral s = clampI s.pid.integ s.cfg.iMax := by
  have gain : numMul (pidError s) 0 = 0 := by rw [numMul_eq]; simp [satInt, wordOf]
  have same : numAdd s.pid.integ 0 = s.pid.integ := by
    obtain ⟨hlo, hhi⟩ := word_range s.pid.integ
    rw [numAdd_eq, show (0 : NumWord).toInt = 0 by decide, add_zero, satInt_of_range hlo hhi, wordOf_of_toInt]
  rw [pidIntegral, h, gain, same]

theorem pidDerivative_of_zero {s : State} (h : pidInterval s = 0) : pidDerivative s = 0 := if_pos h

theorem pidDerivative_toInt {s : State} (h : pidInterval s ≠ 0) : (pidDerivative s).toInt =
    satInt (satInt ((pidError s).toInt - s.pid.errPrev.toInt) * 65536 / (pidInterval s).toInt) := by
  rw [pidDerivative, if_neg h, wordOf_toInt (satInt_range _).1 (satInt_range _).2, numSub_toInt]

/-- The output sum, left to right (R181). -/
theorem pidOutput_toInt (c : CfgRegs) (e integ deriv : NumWord) : (pidOutput c e integ deriv).toInt =
    satInt (satInt (satInt (c.kp.toInt * e.toInt / 65536) + satInt (c.ki.toInt * integ.toInt / 65536)) +
      satInt (c.kd.toInt * deriv.toInt / 65536)) := by
  simp only [pidOutput, numAdd_toInt, numMul_toInt]

/-- Without a derivative the output is the proportional and the integral term (R178). -/
theorem pidOutput_toInt_zero (c : CfgRegs) (e integ : NumWord) : (pidOutput c e integ 0).toInt =
    satInt (satInt (c.kp.toInt * e.toInt / 65536) + satInt (c.ki.toInt * integ.toInt / 65536)) := by
  have term : satInt (c.kd.toInt * (0 : NumWord).toInt / 65536) = 0 := by simp [satInt]
  rw [pidOutput_toInt, term, add_zero, satInt_of_range (satInt_range _).1 (satInt_range _).2]

/-! ### What it leaves in each field -/

section
variable (s : State)

theorem timingChecked_eq : timingChecked s = { s with flags := (timingChecked s).flags } := by
  unfold timingChecked; split <;> rfl

theorem timingChecked_flags :
    (timingChecked s).flags = if pidInterval s = 0 then s.flags ||| 0b0100 else s.flags := by
  unfold timingChecked; split
  · rw [raise_flags, setFlag_degenerateTimingSample]
  · rfl

/-- The controller after an evaluation: the duty is trimmed by the output and clamped (R176, R177). -/
theorem evaluated_pid : (evaluated s).pid =
    { targetMag := s.pid.targetMag
      duty := wordOf (unitInt (satInt (s.pid.duty.toInt +
        (pidOutput s.cfg (pidError s) (pidIntegral s) (pidDerivative s)).toInt)))
      integ := pidIntegral s
      errPrev := pidError s
      tPrev := s.est.velTime } := by
  rw [evaluated, timingChecked_eq, pidCommit, clamp01_eq, numAdd_toInt]

theorem evaluated_flags : (evaluated s).flags = if pidInterval s = 0 then s.flags ||| 0b0100 else s.flags := by
  rw [evaluated, pidCommit_flags, timingChecked_flags]

/-- PID writes the controller's state and the flags alone. -/
theorem evaluated_eq : evaluated s = { s with pid := (evaluated s).pid, flags := (evaluated s).flags } := by
  rw [evaluated, timingChecked_eq]; rfl

end

/-! ### The statements on one evaluation -/

/-- Settles O26: the last primitive of the duty is `clamp01`. -/
theorem pidDutyIsAlwaysClamped : Obligations.PidDutyIsAlwaysClamped := fun s =>
  ⟨_, exec_pid s, clamp01_inUnit _⟩

/-- Settles O28: the last primitive of the integral is `clampI`. -/
theorem integralStaysWithinIMax : Obligations.IntegralStaysWithinIMax := fun s hmax => by
  refine ⟨_, exec_pid s, ?_⟩
  rw [evaluated_pid, pidIntegral, clampI_toInt _ hmax]
  omega

/-- Settles O25: each value of the rule is the integer form of the word that `evaluated` holds. -/
theorem pidResult : Obligations.PidResult := by
  intro s _ dk e dt sum integ deriv p i d out
  have herr : (pidError s).toInt = e := pidError_toInt s
  have hdt : (pidInterval s).toInt = dt := by rw [pidInterval_toInt, ticks_sub_toNat]
  have zero_iff : pidInterval s = 0 ↔ dt = 0 := by rw [← hdt, ← BitVec.toInt_inj]; rfl
  have hinteg : pidIntegral s = integ := by rw [pidIntegral_eq, herr, hdt]
  have hderiv : (pidDerivative s).toInt = deriv := by
    by_cases h0 : pidInterval s = 0
    · rw [pidDerivative_of_zero h0]; exact (if_pos (zero_iff.mp h0)).symm
    · rw [pidDerivative_toInt h0, herr, hdt]; exact (if_neg (mt zero_iff.mpr h0)).symm
  have hout : (pidOutput s.cfg (pidError s) (pidIntegral s) (pidDerivative s)).toInt = out := by
    rw [pidOutput_toInt, herr, hinteg, hderiv]
  rw [exec_pid, evaluated_eq, evaluated_pid, evaluated_flags, hout, hinteg, show pidError s = wordOf e from pidError_eq s]
  simp only [zero_iff]

/-- Settles O27: fewer than 16 ticks are the zero interval, and each side has its values. -/
theorem pidSkipsDerivativeBelowSixteenTicks : Obligations.PidSkipsDerivativeBelowSixteenTicks := by
  intro s dk dt e p i d
  have herr : (pidError s).toInt = e := pidError_toInt s
  have hdt : (pidInterval s).toInt = dt := pidInterval_toInt s
  refine ⟨fun hdk => ?below, fun hdk => ⟨by omega, ?above⟩⟩
  case below =>
    have h0 : pidInterval s = 0 := (pidInterval_eq_zero_iff s).mpr hdk
    refine ⟨_, exec_pid s, (evaluated_flags s).trans (if_pos h0), ?_⟩
    dsimp only [i]
    rw [evaluated_pid, ← pidError_eq, pidDerivative_of_zero h0, pidOutput_toInt_zero, herr]
    exact ⟨pidIntegral_of_zero h0, rfl, rfl, rfl⟩
  case above =>
    have h0 : pidInterval s ≠ 0 := mt (pidInterval_eq_zero_iff s).mp (by omega)
    refine ⟨_, exec_pid s, (evaluated_flags s).trans (if_neg h0), ?_⟩
    dsimp only [i]
    rw [evaluated_pid, ← pidError_eq, pidOutput_toInt, pidDerivative_toInt h0, herr, hdt]
    exact ⟨rfl, rfl, rfl⟩

/-- Settles O24: the two cases of PIDSTEP. -/
theorem pidstepResult : Obligations.PidstepResult := by
  intro s
  obtain ⟨hne, hp⟩ | ⟨h0, p, f, hpid, -, -, hp⟩ := execPidstep_cases s
  · exact ⟨fun _ => hp, fun h0 => absurd h0 hne⟩
  · exact ⟨fun hne => absurd h0 hne, fun _ => ⟨_, hpid, hp⟩⟩

/-! ### The first evaluation of a session (R183) -/

theorem kickFrom_pid (hall : Sample) (s : State) : (kickFrom hall s).pid = s.pid := by
  obtain ⟨-, hk⟩ | ⟨-, hk⟩ := kickFrom_cases hall s
  · rw [hk, commutateTo_pid]
  · rw [hk, raise_pid]

/-- START sets every field of the controller from its operand, the configuration and the time (R210). -/
theorem exec_start_pid (rot vel : NumWord) (s : State) : ∃ t, exec (.start rot vel) s = .next t ∧
    t.pid = ⟨numAbs vel, s.cfg.dutyInit, 0, 0, s.now⟩ ∧ t.cfg = s.cfg := by
  refine ⟨_, startWith_eq _ rot vel s, ?_⟩
  split
  · exact ⟨kickFrom_pid _ _, (PhaseFrame.kickFrom _ _).cfg⟩
  · exact ⟨rfl, rfl⟩

/-- An evaluation reads the controller, the configuration and the estimate alone (R176). -/
theorem evaluated_pid_congr {s t : State} (hpid : s.pid = t.pid) (hcfg : s.cfg = t.cfg)
    (hvelocity : s.est.velocity = t.est.velocity) (htime : s.est.velTime = t.est.velTime) :
    (evaluated s).pid = (evaluated t).pid := by
  have herr : pidError s = pidError t := by rw [pidError, hpid, hvelocity, ← pidError]
  have hdt : pidInterval s = pidInterval t := by rw [pidInterval, hpid, htime, ← pidInterval]
  have hinteg : pidIntegral s = pidIntegral t := by rw [pidIntegral, hpid, hcfg, herr, hdt, ← pidIntegral]
  have hderiv : pidDerivative s = pidDerivative t := by rw [pidDerivative, hpid, herr, hdt, ← pidDerivative]
  rw [evaluated_pid, evaluated_pid, herr, hinteg, hderiv, hpid, hcfg, htime]

/-- Settles O29: the two STARTs leave the same controller and configuration, and an evaluation reads nothing else but the estimate. -/
theorem firstPidForgetsTheOldSession : Obligations.FirstPidForgetsTheOldSession := by
  intro s₁ s₂ rot vel velocity time hcfg hnow
  obtain ⟨t₁, ht₁, hpid₁, hcfg₁⟩ := exec_start_pid rot vel s₁
  obtain ⟨t₂, ht₂, hpid₂, hcfg₂⟩ := exec_start_pid rot vel s₂
  have hpid : t₁.pid = t₂.pid := by rw [hpid₁, hpid₂, hcfg, hnow]
  have hcfg' : t₁.cfg = t₂.cfg := by rw [hcfg₁, hcfg₂, hcfg]
  exact ⟨t₁, t₂, _, _, ht₁, ht₂, exec_pid _, exec_pid _, evaluated_pid_congr hpid hcfg' rfl rfl⟩

end Sys2Proof.Machine
end

section
/-! The rotation budget (R190 to R198): the value of PROFILE, BUDGET case by case, and the one way a cycle without START can move the
count. -/
namespace Sys2Proof.Machine

/-! ### PROFILE -/

/-- Inside the window the fraction left is at most 1.0, so neither saturation nor the clamp acts on its square (R196). -/
theorem clamp01_square_toInt {f : Nat} (hf : f ≤ 65536) :
    (clamp01 (numMul (wordOf (satInt f)) (wordOf (satInt f)))).toInt = ((f * f / 65536 : Nat) : Int) := by
  have hfactor : (wordOf (satInt f)).toInt = f := by
    rw [satInt_of_range (by omega) (by omega), wordOf_toInt (by omega) (by omega)]
  have hsquare : f * f / 65536 ≤ 65536 := Nat.div_le_of_le_mul (Nat.mul_le_mul hf hf)
  have hcast : (f : Int) * f / 65536 = ((f * f / 65536 : Nat) : Int) := by push_cast; rfl
  rw [clamp01_toInt, numMul_toInt, unitInt_satInt, hfactor, hcast, unitInt]
  omega

/-- The fraction of the window that is left, floored, in counts of `2^-16` (R196). -/
def windowFraction (b : Budget) : Nat := b.rem.toInt.natAbs * 65536 / b.win.toNat

/-- The profile factor of a budget in counts of `2^-16` (R196). -/
theorem profileOf_toInt (b : Budget) : ∃ p, profileOf b = some p ∧ p.toInt =
    (if b.budgetOn = false ∨ b.win = 0 ∨ b.win.toNat ≤ b.rem.toInt.natAbs then 65536
     else ((windowFraction b * windowFraction b / 65536 : Nat) : Int)) := by
  by_cases h : b.budgetOn = false ∨ b.win = 0 ∨ b.win.toNat ≤ b.rem.toInt.natAbs
  · exact ⟨_, profileOf_one h, (if_pos h).symm⟩
  · obtain ⟨-, -, hwin⟩ : b.budgetOn ≠ false ∧ b.win ≠ 0 ∧ ¬b.win.toNat ≤ b.rem.toInt.natAbs := by simpa only [not_or] using h
    have hfraction : windowFraction b ≤ 65536 := Nat.div_le_of_le_mul (Nat.mul_le_mul_right _ (by omega))
    rw [if_neg h]
    refine ⟨_, ?_, clamp01_square_toInt hfraction⟩
    rw [profileOf, if_neg h, ratio_of_ne_zero (by omega), Option.map_some, windowFraction]

theorem exec_profile {s : State} {p : NumWord} (h : profileOf s.budget = some p) :
    exec .profile s = .next { s with result := .factor p } := by
  show execProfile s = _
  rw [execProfile, h, withQuotient_some]

/-- Settles O30: PROFILE leaves the factor of the budget, whose value is known on both sides of the window. -/
theorem profileResult : Obligations.ProfileResult := fun s =>
  (profileOf_toInt s.budget).imp fun _ ⟨hp, hvalue⟩ => ⟨exec_profile hp, hvalue⟩

/-! ### BUDGET -/

section
variable {a : RotorState} {s : State}

theorem execBudget_of_off (hoff : s.budget.budgetOn = false) : execBudget a s = .next s := if_pos hoff

/-- From the midpoint on the latch is set afterwards, whether or not it was before (R191). -/
theorem execBudget_of_midpoint (hon : s.budget.budgetOn = true) (ha : 3 ≤ a.toNat) :
    execBudget a s = .next { s with budget := { s.budget with latch := true } } := by
  have ha0 : a ≠ 0 := by rintro rfl; exact absurd ha (by decide)
  rw [execBudget, if_neg (by rw [hon]; decide)]
  cases hlatch : s.budget.latch with
  | false => exact if_pos ⟨ha, rfl⟩
  | true =>
    rw [if_neg fun h => absurd h.2 (by decide), if_neg fun h => ha0 h.1, ← hlatch]

/-- Before the midpoint BUDGET does nothing but at the reference state with the latch set (R191). -/
theorem execBudget_of_rest (ha : a.toNat < 3) (hrest : a ≠ 0 ∨ s.budget.latch = false) : execBudget a s = .next s := by
  have hcount : ¬(a = 0 ∧ s.budget.latch = true) := fun ⟨h0, hlatch⟩ =>
    hrest.elim (absurd h0) fun h => absurd (h.symm.trans hlatch) (by decide)
  rw [execBudget, if_neg fun h : 3 ≤ a.toNat ∧ _ => absurd h.1 (by omega), if_neg hcount, ite_self]

/-- At the reference state a set latch is consumed, and the factor is that of the new count (R191). -/
theorem execBudget_of_latch {p : NumWord} (hon : s.budget.budgetOn = true) (hlatch : s.budget.latch = true)
    (hp : profileOf { s.budget with latch := false, rem := countStep s.budget.rem } = some p) :
    execBudget 0 s = .next { s with budget := counted s.budget p } := by
  rw [execBudget, if_neg (by rw [hon]; decide), if_neg fun h => absurd h.1 (by decide), if_pos ⟨rfl, hlatch⟩]
  dsimp only
  rw [hp, withQuotient_some, counted]

end

/-- The count after one step as R193 writes it. -/
theorem countStep_toInt_eq_ite (rem : Count) : (countStep rem).toInt =
    if 0 < rem.toInt then rem.toInt - 1 else if rem.toInt < 0 then rem.toInt + 1 else 0 := by
  rw [countStep_toInt]
  split
  · rw [Int.sign_eq_one_of_pos ‹_›]
  · split
    · rw [Int.sign_eq_neg_one_of_neg ‹_›]; omega
    · rw [show rem.toInt = 0 by omega]; rfl

/-- Settles O31: one equation of BUDGET for each case of the rule. -/
theorem budgetResult : Obligations.BudgetResult := by
  intro a s _ b r b'
  have hr : (countStep b.rem).toInt = r := countStep_toInt_eq_ite b.rem
  have hword : BitVec.ofInt 32 r = countStep b.rem := hr ▸ wordOf_of_toInt _
  have hzero : countStep b.rem = 0 ↔ r = 0 := hr ▸ count_eq_zero_iff _
  refine ⟨execBudget_of_off, execBudget_of_midpoint, fun _ ha => ?between, fun _ ha hlatch => ?unlatched,
    fun hon ha hlatch => ?counts⟩
  case between => exact execBudget_of_rest (by omega) (.inl (by rintro rfl; exact absurd ha (by decide)))
  case unlatched => exact execBudget_of_rest (ha ▸ by decide) (.inr hlatch)
  case counts =>
    have hb' : b' = { b with latch := false, rem := countStep b.rem } := by rw [← hword]
    obtain ⟨p, hp, -⟩ := profileOf_some b'
    refine ⟨p, exec_profile hp, ?_⟩
    have hrun : execBudget 0 s = .next { s with budget := counted b p } := execBudget_of_latch hon hlatch (hb' ▸ hp)
    simp only [counted, hzero] at hrun
    rw [ha, hb']
    exact hrun

/-! ### The count in a cycle (R193) -/

/-- The budget after one run of BUDGET from the budget `b` (R191). -/
inductive BudgetOutcome (b : Budget) : Budget → Prop where
  | rest : BudgetOutcome b b
  | armed : BudgetOutcome b { b with latch := true }
  | counted (p : NumWord) (hon : b.budgetOn = true) (hlatch : b.latch = true) : BudgetOutcome b (counted b p)

section
variable {s t : State}

theorem execBudget_outcome {a : RotorState} (ht : execBudget a s = .next t) : BudgetOutcome s.budget t.budget := by
  obtain ⟨b, hb, hcase⟩ := execBudget_cases a s
  obtain rfl := next_unique hb ht
  obtain rfl | ⟨-, -, -, rfl⟩ | ⟨hon, hlatch, -, p, -, rfl⟩ := hcase
  · exact .rest
  · exact .armed
  · exact .counted p hon hlatch

/-- REFVISIT leaves the budget alone, so of BOOKKEEP's two halves BUDGET alone moves it (R161). -/
theorem execBookkeep_outcome {st : RotorState} (ht : execBookkeep st s = .next t) : BudgetOutcome s.budget t.budget := by
  obtain ⟨u, v, hbook, hvisit, hbudget⟩ := execBookkeep_cases st s
  obtain rfl := next_unique hbook ht
  have hu : u.budget = s.budget := by
    split at hvisit
    · obtain ⟨_, _, rfl, -⟩ := execRefvisit_keeps_flags hvisit; rfl
    · rw [hvisit]
  exact hu ▸ execBudget_outcome hbudget

theorem execEdge_outcome (ht : execEdge s = .next t) : BudgetOutcome s.budget t.budget := by
  obtain ⟨-, he⟩ | ⟨-, -, -, he⟩ | ⟨-, -, -, -, he⟩ | ⟨-, -, -, -, -, he⟩ := execEdge_cases s
  · exact next_unique he ht ▸ .rest
  · exact next_unique he ht ▸ .rest
  · exact next_unique he ht ▸ .rest
  · have hbook := execBookkeep_outcome (he.symm.trans ht)
    rwa [commutateTo_budget] at hbook

theorem execPidstep_budget (ht : execPidstep s = .next t) : t.budget = s.budget := by
  obtain ⟨_, _, _, h⟩ := execPidstep_frame s
  exact next_unique h ht ▸ rfl

/-- Of the phases before the command P3 alone moves the budget, and it runs BUDGET once at most. -/
theorem earlyPhases_outcome (ht : earlyPhases s = .next t) : BudgetOutcome s.budget t.budget := by
  simp only [earlyPhases, andThen_eq_next] at ht
  obtain ⟨s1, h1, s2, h2, s3, h3, h4⟩ := ht
  have budget1 : s1.budget = s.budget := next_unique (oncommitPhase_eq s) h1 ▸ committed_budget s
  have budget2 : s2.budget = s1.budget :=
    phase_rel (R := fun s t => t.budget = s.budget) h2 rfl fun h => (execHoming_keeps_est_budget_env h).2.1
  have outcome3 : BudgetOutcome s2.budget s3.budget :=
    phase_rel (R := fun s t => BudgetOutcome s.budget t.budget) h3 .rest execEdge_outcome
  have budget4 : t.budget = s3.budget := phase_rel (R := fun s t => t.budget = s.budget) h4 rfl execPidstep_budget
  rwa [budget4, ← budget1, ← budget2]

/-- A cycle without reset and START runs BUDGET once at most, and nothing else in it moves the budget. -/
theorem step_budgetOutcome (hr : (nextPins s).rst = false) (hstart : ∀ rot vel, ¬Accepts s (.start rot vel))
    (ht : step s = .next t) : BudgetOutcome s.budget t.budget := by
  obtain ⟨s1, s2, s3, s4, s5, run⟩ := exists_phaseRun s
  obtain rfl := next_unique (run.step_eq hr) ht
  have outcome4 : BudgetOutcome s.budget s4.budget := by simpa only [present_budget] using earlyPhases_outcome run.earlyPhases_eq
  have budget5 : s5.budget = s4.budget := by
    obtain ⟨hc, he⟩ | ⟨-, rfl⟩ := phase_eq_next.mp run.cmd
    · have hrun : execCmd s4 = .next s5 := he
      rw [execCmd_eq, run.sameClock_early.2, present_env_pins] at hrun
      obtain ⟨-, -, hkept⟩ | ⟨rot, vel, hdecode, -⟩ := exec_command_session _ hrun
      · exact hkept
      · obtain ⟨hvalid, hhoming⟩ : (nextPins s).cmdValid = true ∧ s.align.homing = false := by simpa using hc
        exact absurd ⟨hr, hvalid, hhoming, congrArg Command.toInstr hdecode⟩ (hstart rot vel)
    · rfl
  exact budget5.symm ▸ outcome4

end

/-- A run of BUDGET leaves the count, or consumes the latch and moves the count one toward zero (R193, R194). -/
theorem BudgetOutcome.count {b b' : Budget} (h : BudgetOutcome b b') :
    b'.rem = b.rem ∨ (b.budgetOn = true ∧ b.latch = true ∧ b'.latch = false ∧
      b'.rem.toInt = b.rem.toInt - Int.sign b.rem.toInt ∧ (b'.rem = 0 → b'.done = true)) := by
  cases h with
  | rest | armed => exact .inl rfl
  | counted p hon hlatch => exact .inr ⟨hon, hlatch, rfl, countStep_toInt b.rem, fun h0 => if_pos h0⟩

/-- Settles O32: the cycle runs BUDGET once at most, and a run of BUDGET counts one toward zero at most. -/
theorem countMovesOnlyTowardZero : Obligations.CountMovesOnlyTowardZero := fun _ _ ht hr hstart =>
  (step_budgetOutcome hr hstart ht).count

end Sys2Proof.Machine
end

section
/-! The commands without a session (R205 to R207, R218, R220): CMD and the row it runs, NOP and a cycle that presents one, HOME, CLRF,
and the reserved opcodes. -/
namespace Sys2Proof.Machine

/-! ### CMD -/

/-- Settles O40: every command completes, and CMD is the operation of the word's row. -/
theorem cmdRunsTheSelectedRow : Obligations.CmdRunsTheSelectedRow := fun s => by
  obtain ⟨t, ht⟩ := execCmd_next s
  exact ⟨t, (execCmd_eq s).symm.trans ht, ht⟩

/-! ### NOP -/

theorem exec_nop (s : State) : exec .nop s = .next s := rfl

/-- On a NOP word the command phase leaves the state alone, accepted or not. -/
theorem cmdPhase_of_nop {s : State} (c : Bool) (hnop : decodeWord s.env.pins.cmd = .nop) : phase c .cmd s = .next s := by
  cases c with
  | false => rfl
  | true => exact (execCmd_eq s).trans (by rw [hnop, exec_nop])

/-- What follows an operation needs to be known only on the state the operation answers. -/
theorem andThen_congr {r : Result} {f g : State → Result} (h : ∀ t, r = .next t → f t = g t) : andThen r f = andThen r g := by
  cases r with
  | next t => exact h t rfl
  | fault | refused => rfl

/-- A cycle without reset on a NOP word is the phases P1 to P4 and the tick, whether the word is presented or not. -/
theorem cycle_of_nop {s : State} (hr : s.env.pins.rst = false) (hnop : decodeWord s.env.pins.cmd = .nop) :
    cycle s = andThen (earlyPhases s) (exec .tick) := by
  have hrst : ¬s.env.pins.rst = true := by rw [hr]; decide
  rw [cycle, if_neg hrst]
  refine andThen_congr fun s4 h4 => ?_
  obtain ⟨frame, -⟩ := earlyPhases_frame h4
  rw [cmdPhase_of_nop _ (by rw [frame.env, hnop]), andThen_next]

/-- A cycle on a NOP word reads the reset pin and the sample alone. -/
theorem cycle_setEnv_of_nop {s : State} {e : Env} (hnop : decodeWord s.env.pins.cmd = .nop) (hnop' : decodeWord e.pins.cmd = .nop)
    (hrst : e.pins.rst = s.env.pins.rst) (hhall : e.pins.hall = s.env.pins.hall) :
    cycle { s with env := e } = setEnv e (cycle s) := by
  cases hr : s.env.pins.rst with
  | true => rw [cycle_of_rst hr, cycle_of_rst (s := { s with env := e }) (hrst.trans hr)]; rfl
  | false =>
    rw [cycle_of_nop hr hnop, cycle_of_nop (s := { s with env := e }) (hrst.trans hr) hnop', earlyPhases_setEnv hhall]
    exact andThen_setEnv fun _ _ => rfl

/-- Settles O33: `cmd_valid` can matter to the command phase alone, and on a NOP word that phase does nothing. -/
theorem nopIsNoCommand : Obligations.NopIsNoCommand := by
  refine ⟨exec_nop, fun s p ps hnop => ?_⟩
  obtain ⟨t, ht⟩ := step_total (withScript s ({ p with cmdValid := true } :: ps))
  refine ⟨t, ht, ?_⟩
  have henv : t.env = { s.env with pins := { p with cmdValid := true }, script := ps } := by
    rw [step_env ht, present_withScript_cons]
  have hcycle := cycle_setEnv_of_nop (s := present (withScript s ({ p with cmdValid := true } :: ps)))
    (e := { t.env with pins := { p with cmdValid := false } }) hnop hnop rfl rfl
  rw [show cycle _ = _ from ht, henv] at hcycle
  rw [henv]
  exact hcycle

/-! ### HOME -/

theorem exec_home (s : State) : exec .home s = .next (driveLegs 0 s.cfg.homeDuty { s with
    align := { s.align with homing := true, homed := false, homeFail := false, settleCnt := s.cfg.settle }
    sensor := { s.sensor with rotorPrev := 7 } }) := rfl

/-- The alignment pattern: drive state 0 has drivers 1 and 4 on (R85). -/
theorem driveTable_zero : driveTable 0 = 0x12 := rfl

/-- Settles O34. -/
theorem homeResult : Obligations.HomeResult := fun s => by
  rw [exec_home, driveLegs, driveTable_zero]

/-! ### CLRF -/

theorem exec_clrf (m : BitVec 4) (s : State) : exec (.clrf m) s = .next { s with flags := clearFlags s.flags m } := rfl

/-- A flag stands after CLRF if it stood before and its mask bit is 0 (R218). -/
theorem clearFlags_getLsbD (f m : BitVec 4) {j : Nat} (hj : j < 4) :
    (clearFlags f m).getLsbD j = (f.getLsbD j && !m.getLsbD j) := by
  rw [clearFlags, BitVec.getLsbD_and, BitVec.getLsbD_not, decide_eq_true hj, Bool.true_and]

/-- Settles O38. -/
theorem clrfResult : Obligations.ClrfResult := fun m s =>
  ⟨_, exec_clrf m s, fun _ => clearFlags_getLsbD s.flags m⟩

/-! ### The reserved opcodes -/

theorem malformedOpcode_eq (s : State) : malformedOpcode s = .next { s with flags := s.flags ||| 0b1000 } := by
  rw [malformedOpcode, raise, setFlag_malformedCommand]

/-- Settles O39: the three rows are one operation. -/
theorem reservedOpcodesOnlySetErrCmd : Obligations.ReservedOpcodesOnlySetErrCmd := fun s =>
  ⟨malformedOpcode_eq s, malformedOpcode_eq s, malformedOpcode_eq s⟩

end Sys2Proof.Machine
end

section
/-! START (R210 to R212): its count in integers, the session it loads, and the kick. -/
namespace Sys2Proof.Machine

/-! ### The count (R211) -/

/-- The integer part of a 32-bit number in steps of `2^-16`, rounded toward zero: between it and the number lies less than one. -/
theorem tdiv_bounds (x : Int) :
    (0 ≤ x → x.tdiv 65536 * 65536 ≤ x ∧ x < (x.tdiv 65536 + 1) * 65536) ∧
    (x < 0 → x ≤ x.tdiv 65536 * 65536 ∧ (x.tdiv 65536 - 1) * 65536 < x) := by
  refine ⟨fun hx => ?_, fun hx => ?_⟩
  · rw [Int.tdiv_eq_ediv_of_nonneg hx]
    omega
  · have hneg : x.tdiv 65536 = -(-x / 65536) := by
      rw [← Int.tdiv_eq_ediv_of_nonneg (by omega), Int.neg_tdiv, neg_neg]
    rw [hneg]
    omega

theorem rotationCount_eq (rot : NumWord) : rotationCount rot = wordOf (rot.toInt.tdiv 65536) := by
  rw [rotationCount, numTrunc, numOne_eq, wordOf]

/-- The integer part of a `Num` has sixteen bits. -/
theorem tdiv_word_range (rot : NumWord) : -32768 ≤ rot.toInt.tdiv 65536 ∧ rot.toInt.tdiv 65536 ≤ 32767 := by
  have hword := word_range rot
  obtain ⟨hpos, hneg⟩ := tdiv_bounds rot.toInt
  omega

theorem rotationCount_toInt (rot : NumWord) : (rotationCount rot).toInt = rot.toInt.tdiv 65536 := by
  have hrange := tdiv_word_range rot
  rw [rotationCount_eq, wordOf_toInt (by omega) (by omega)]

theorem rotationCount_ne_zero_iff (rot : NumWord) : rotationCount rot ≠ 0 ↔ rot.toInt.tdiv 65536 ≠ 0 := by
  rw [Ne, count_eq_zero_iff, rotationCount_toInt]

/-! ### START with and without the kick -/

theorem exec_start_of_unhomed {rot vel : NumWord} {s : State} (h : s.align.homed = false) :
    exec (.start rot vel) s = .next (sessionStarted rot vel s) :=
  (startWith_eq _ rot vel s).trans (by rw [if_neg (by rw [h]; decide)])

/-- The build has the kick (R9, notes/assumptions/6.md). -/
theorem exec_start_of_homed {rot vel : NumWord} {s : State} (h : s.align.homed = true) :
    exec (.start rot vel) s = .next (kickFrom s.env.pins.hall (sessionStarted rot vel s)) :=
  (startWith_eq _ rot vel s).trans (by rw [if_pos ⟨h, rfl⟩])

theorem kickFrom_of_valid {hall : Sample} (s : State) (hv : (decodeSample hall).valid = true) :
    kickFrom hall s = commutateTo (decodeSample hall).state s := if_pos hv

theorem kickFrom_of_invalid {hall : Sample} (s : State) (hv : (decodeSample hall).valid = false) :
    kickFrom hall s = raise .invalidSensorReading s := if_neg (by rw [hv]; decide)

/-- Settles O36: the kick leaves the budget alone. -/
theorem rotationCountIsTruncated : Obligations.RotationCountIsTruncated := by
  intro rot vel s
  obtain ⟨t, ht⟩ := exec_total (.start rot vel) s
  obtain ⟨-, -, hbudget⟩ := execStart_phaseFrame ht
  have hcount : t.budget.targetCnt = rotationCount rot := congrArg Budget.targetCnt hbudget
  have hrem : t.budget.rem = rotationCount rot := congrArg Budget.rem hbudget
  refine ⟨t, ht, hrem.trans hcount.symm, ?_⟩
  rw [hcount, rotationCount_toInt]
  obtain ⟨hlow, hhigh⟩ := tdiv_word_range rot
  obtain ⟨hpos, hneg⟩ := tdiv_bounds rot.toInt
  exact ⟨hlow, hhigh, hpos, hneg⟩

/-- Settles O35: the session in integers, and after it the kick of a homed machine. -/
theorem startResult : Obligations.StartResult := by
  intro rot vel s n loaded
  have hloaded : sessionStarted rot vel s = loaded := by
    simp only [sessionStarted, loadSession, numAbs_eq, sessionWindow, rotationCount_toInt, rotationCount_ne_zero_iff, loaded, n]
    rw [rotationCount_eq]
  refine ⟨fun hhomed => ?unhomed, fun hhomed hraw => ?invalid, fun hhomed hlow hhigh => ?valid⟩
  case unhomed => rw [exec_start_of_unhomed hhomed, hloaded]
  case invalid =>
    have hv := (decodeSample_valid_eq_false_iff s.env.pins.hall).mpr hraw
    rw [exec_start_of_homed hhomed, hloaded, kickFrom_of_invalid _ hv, raise, setFlag_invalidSensorReading]
  case valid =>
    have hv := (decodeSample_valid_iff s.env.pins.hall).mpr ⟨hlow, hhigh⟩
    exact ⟨_, exec_commutate _ loaded, by rw [exec_start_of_homed hhomed, hloaded, kickFrom_of_valid _ hv]⟩

end Sys2Proof.Machine
end

section
/-! Reset (R260): the step of a cycle with `rst = 1`. -/
namespace Sys2Proof.Machine

/-- Settles O46: no phase runs beside the reset (`step_of_rst`), so `e` is the environment the cycle presents, and `r` is the result
field of the reset state. -/
theorem resetWins : Obligations.ResetWins := fun s hr =>
  ⟨(present s).env, State.reset.result, step_of_rst hr⟩

end Sys2Proof.Machine
end
